-- ==== Sys2Proof/Word.lean ====
section
/-! DEFINITION. The word types of PLL-FSC: host registers and command words are 32 bits (10_state.md
R31, 30_encoding.md R90), chip registers, port entries and masks are bytes (20_memory.md R60). -/

namespace Sys2Proof

/-- One byte: a chip register, a port entry's address or value, a mask. -/
abbrev Byte := BitVec 8

/-- One 32-bit host register or command word. -/
abbrev Word := BitVec 32

end Sys2Proof
end

