-- ==== Sys2Proof/Machine/Bits.lean ====
section
/-! DEFINITION. Bit and byte helpers of 00_scope.md R8 and R10: mask positions and counts, and the
little-endian packing of bytes into a host word (20_memory.md R67). -/

namespace Sys2Proof.Machine

open Sys2Proof

/-- `lsb(m)` of R10: the index of the lowest set bit (8 for a zero mask, which every caller has
excluded). -/
def lsb (m : Byte) : Nat := (List.range 8).findIdx fun i => m.getLsbD i

/-- `popcount(m)` of R10. -/
def popcount (m : Byte) : Nat := (List.range 8).countP fun i => m.getLsbD i

/-- A mask that is a single run of ones (40_bitfield_codec.md R120, R127). -/
def contiguous (m : Byte) : Bool := m.toNat == (2 ^ popcount m - 1) <<< lsb m

/-- `fits(v, m)` of R120, in unbounded naturals: every set bit of `v << lsb(m)`, those at position 8
and above too, lies in m. -/
def fits (v : Nat) (m : Byte) : Bool := m != 0 && (v <<< lsb m) &&& m.toNat == v <<< lsb m

/-- Four bytes in one host word, the lower index in the less significant bits (20_memory.md R67). -/
def wordOfBytes (b0 b1 b2 b3 : Byte) : Word := (b3 ++ b2 ++ b1 ++ b0).setWidth 32

/-- Byte j of a host word. -/
def byteOfWord (w : Word) (j : Nat) : Byte := w.extractLsb' (8 * j) 8

end Sys2Proof.Machine
end

