-- ==== Sys2Proof/Config.lean ====
section
/-! DEFINITION. What an instance of PLL-FSC fixes: THW's constants, one configuration field each with
THW's value as its default (00_scope.md R6), the types of the open parameters with their reference instances (R7,
40_bitfield_codec.md R128 and R129), and the two trim tuples no source gives (43_xo_trim.md R184),
which are opaque: nothing can evaluate them. -/

namespace Sys2Proof

/-- The seven trim fields, in THW's order (10_state.md R28), at the widths of their containers in the
XO word (43_xo_trim.md R183). -/
structure XoSettings where
  doublerDisabled   : Bool
  amplifierGm       : BitVec 4
  capX1             : BitVec 8
  ampSlice          : BitVec 4
  capX2             : BitVec 8
  overtoneDisabled  : Bool
  overtoneResistor  : BitVec 4
  deriving DecidableEq, Repr, Inhabited

/-- One piece of a field: the value bits it carries are the masked bits of the byte at offset `off`
of its block (40_bitfield_codec.md R126). -/
structure Piece where
  off  : Nat
  mask : Byte
  deriving DecidableEq, Repr

/-- FIELD_MAP_DIV (R7, R127): the pieces of the four fields of the divider block, least significant
piece first. -/
structure DivMap where
  outputDivider : List Piece
  feedbackInt   : List Piece
  feedbackFrac  : List Piece
  chargePump    : List Piece
  deriving DecidableEq, Repr

/-- FIELD_MAP_XO (R7, R127): the pieces of the nine fields of the XO block. -/
structure XoMap where
  doublerDisabled   : List Piece
  amplifierGm       : List Piece
  capX1             : List Piece
  ampSlice          : List Piece
  capX2             : List Piece
  overtoneDisabled  : List Piece
  overtoneResistor  : List Piece
  oeMode            : List Piece
  vsel              : List Piece
  deriving DecidableEq, Repr

/-- The two field maps an instance of the model takes as parameters (R7). -/
structure FieldMaps where
  div : DivMap
  xo  : XoMap
  deriving DecidableEq, Repr

/-- The implementation constants of 00_scope.md R6, one configuration field each, defaulting to THW's
value (D1: an audit corrects a literal by setting a field, and no rule changes). The instance the model
runs with is `Machine.config` (Machine/Params.lean). UNVERIFIED literals, unsafe if one is wrong
(log 13). -/
structure Config where
  divoMin : Nat := 4
  divoMax : Nat := 511
  divnMin : Nat := 41
  divnMax : Nat := 216
  /-- Hz. -/
  fvcoMin : Nat := 6860000000
  fvcoMax : Nat := 8650000000
  /-- The width of feedback_frac. -/
  fracBits : Nat := 24
  partMinHz : Nat := 16000000
  partMaxHz : Nat := 2100000000
  cpBreak1 : Nat := 7000000000
  cpBreak2 : Nat := 7400000000
  cpBreak3 : Nat := 7800000000
  /-- Strictly below this, in parts of `classScale`, a change is Small. -/
  smallThreshold : Nat := 5
  classScale : Nat := 10000
  divBase : Byte := 0x10
  divLen : Nat := 6
  xoBase : Byte := 0x50
  xoLen : Nat := 8
  ctrlAddr : Byte := 0x60
  trigAddr : Byte := 0x62
  /-- The bytes written to CTRL_ADDR, in order. -/
  setupSeq : List Byte := [0x00, 0x20, 0x00, 0x01, 0x00]
  /-- The bytes written to TRIG_ADDR for a Large change, in order. -/
  trigLarge : List Byte := [0x01, 0x00]
  /-- The bytes written to TRIG_ADDR for a Small change, in order. -/
  trigSmall : List Byte := [0x02, 0x00]
  /-- XO_BAND1, both edges inclusive. -/
  xoBand1Lo : Nat := 40000000
  xoBand1Hi : Nat := 80000000
  xoBand2Lo : Nat := 100000000
  /-- XO_BAND2 ends strictly below this. -/
  xoBand2End : Nat := 140000000
  /-- XO_BAND3, both edges inclusive. -/
  xoBand3Lo : Nat := 140000000
  xoBand3Hi : Nat := 166000000
  /-- The bytes of a full chip register image. -/
  bulkLen : Nat := 256
  deriving DecidableEq, Repr

namespace Config

/-- XO_BAND1_TUPLE (43_xo_trim.md R181). -/
def xoBand1Tuple : XoSettings :=
  { doublerDisabled := false, amplifierGm := 2, capX1 := 0x3C, ampSlice := 1, capX2 := 2,
    overtoneDisabled := true, overtoneResistor := 0 }

/-- XO_BAND2_TUPLE: an OPEN parameter (R184). A free value: no body, so no proof can see it. The
instance is one that has the parameter, so the "absent" case of R184 does not arise (DESIGN CHOICE,
log 4). -/
opaque xoBand2Tuple : XoSettings

/-- XO_BAND3_TUPLE: as `xoBand2Tuple`. -/
opaque xoBand3Tuple : XoSettings

/-! ### The reference field maps (DESIGN CHOICE of the spec, D14 and D15; log 3) -/

/-- The reference FIELD_MAP_DIV of R128. -/
def refDivMap : DivMap :=
  { outputDivider := [⟨0, 0xFF⟩, ⟨1, 0x01⟩]
    feedbackInt   := [⟨1, 0xFE⟩, ⟨2, 0x03⟩]
    chargePump    := [⟨2, 0x1C⟩]
    feedbackFrac  := [⟨3, 0xFF⟩, ⟨4, 0xFF⟩, ⟨5, 0xFF⟩] }

/-- The reference FIELD_MAP_XO of R129. -/
def refXoMap : XoMap :=
  { doublerDisabled  := [⟨0, 0x01⟩]
    amplifierGm      := [⟨1, 0x0F⟩]
    ampSlice         := [⟨1, 0xF0⟩]
    capX1            := [⟨2, 0xFF⟩]
    capX2            := [⟨3, 0xFF⟩]
    overtoneDisabled := [⟨4, 0x01⟩]
    overtoneResistor := [⟨4, 0xF0⟩]
    oeMode           := [⟨5, 0x03⟩]
    vsel             := [⟨6, 0x03⟩] }

/-- The two reference maps together. -/
def refMaps : FieldMaps := { div := refDivMap, xo := refXoMap }

end Config

end Sys2Proof
end

