-- ==== Sys2Proof/Machine/Params.lean ====
section
/-! DEFINITION. The configuration the model runs with (00_scope.md R6): every constant at THW's value.
An audit that corrects a literal sets its field here. -/

namespace Sys2Proof.Machine

open Sys2Proof

/-- The constants of R6, each at its default (log 13). -/
abbrev config : Config := {}

end Sys2Proof.Machine
end

