-- ==== Sys2Proof/Machine/FieldMaps.lean ====
section
/-! DEFINITION. Field maps: the width of a field and the five conditions under which a map is
well-formed (40_bitfield_codec.md R126 and R127). -/

namespace Sys2Proof.Machine

open Sys2Proof

/-- `width(F)` of R126: the value bits the pieces carry together. -/
def width : List Piece → Nat
  | [] => 0
  | p :: ps => popcount p.mask + width ps

/-- Every piece of the divider map. -/
def divPieces (m : DivMap) : List Piece :=
  m.outputDivider ++ m.feedbackInt ++ m.feedbackFrac ++ m.chargePump

/-- Every piece of the XO map: the seven trim fields, then the two user fields. -/
def xoPieces (m : XoMap) : List Piece :=
  m.doublerDisabled ++ m.amplifierGm ++ m.capX1 ++ m.ampSlice ++ m.capX2 ++ m.overtoneDisabled ++
    m.overtoneResistor ++ m.oeMode ++ m.vsel

/-- R127 condition 1: every mask is non-zero and contiguous. -/
def masksOk (ps : List Piece) : Bool := ps.all fun p => p.mask != 0 && contiguous p.mask

/-- No bit of the block belongs to both pieces. -/
def disjoint (p q : Piece) : Bool := p.off != q.off || p.mask &&& q.mask == 0

/-- R127 condition 2: no bit of the block belongs to two pieces. -/
def piecesDisjoint : List Piece → Bool
  | [] => true
  | p :: ps => ps.all (disjoint p) && piecesDisjoint ps

/-- R127 condition 3: every offset is inside its block of `len` bytes. -/
def offsetsOk (len : Nat) (ps : List Piece) : Bool := ps.all fun p => p.off < len

/-- R127 condition 4: the widths of the divider map. -/
def divWidthsOk (m : DivMap) : Bool :=
  width m.outputDivider == 9 && width m.feedbackInt == 9 && width m.feedbackFrac == config.fracBits &&
    width m.chargePump == 3

/-- R127 condition 5: each trim field fits its container in the XO word (43_xo_trim.md R183), each user
field fits a byte. -/
def xoWidthsOk (m : XoMap) : Bool :=
  width m.doublerDisabled ≤ 1 && width m.amplifierGm ≤ 4 && width m.capX1 ≤ 8 &&
    width m.ampSlice ≤ 4 && width m.capX2 ≤ 8 && width m.overtoneDisabled ≤ 1 &&
    width m.overtoneResistor ≤ 4 && width m.oeMode ≤ 8 && width m.vsel ≤ 8

/-- A well-formed FIELD_MAP_DIV (R127). -/
def divMapOk (m : DivMap) : Bool :=
  masksOk (divPieces m) && piecesDisjoint (divPieces m) && offsetsOk config.divLen (divPieces m) &&
    divWidthsOk m

/-- A well-formed FIELD_MAP_XO (R127). -/
def xoMapOk (m : XoMap) : Bool :=
  masksOk (xoPieces m) && piecesDisjoint (xoPieces m) && offsetsOk config.xoLen (xoPieces m) &&
    xoWidthsOk m

/-- Both maps are well-formed. -/
def mapsOk (m : FieldMaps) : Bool := divMapOk m.div && xoMapOk m.xo

end Sys2Proof.Machine
end

