-- ==== Sys2Proof/Syntax.lean ====
section
/-! DEFINITION. The 14 commands of FSC command set version 1 (30_encoding.md R93), one constructor per
row of spec/opcode_table.json. Inline operands F1 to F3 are unsigned bytes used as they stand (R94);
the ARG operands are read from the command latch and are no part of the command word. -/

namespace Sys2Proof

inductive Instr where
  /-- INIT, OP 0x01, format Z (44_sequencer.md R203). -/
  | init
  /-- SET_RATE, OP 0x02, format Z (R206). -/
  | setRate
  /-- GET_RATE, OP 0x03, format Z (R215). -/
  | getRate
  /-- ROUND_RATE, OP 0x04, format Z (R217). -/
  | roundRate
  /-- BULK_LOAD, OP 0x05, format Z (R216). -/
  | bulkLoad
  /-- SET_XO_USER, OP 0x06, format X: OE = F1, VS = F2 (R220). -/
  | setXoUser (oe vs : Byte)
  /-- SET_XO_TRIM, OP 0x07, format Z (R222). -/
  | setXoTrim
  /-- ABORT, OP 0x08, format Z (R223). -/
  | abort
  /-- PACK, OP 0x10, format B: MASK = F1, BYTE = F2, VALUE = F3 (40_bitfield_codec.md R123). -/
  | pack (mask byte value : Byte)
  /-- UNPACK, OP 0x11, format U: MASK = F1, BYTE = F2 (R124). -/
  | unpack (mask byte : Byte)
  /-- SOLVE, OP 0x12, format Z (41_divider_solver.md R152). -/
  | solve
  /-- SELECT_CP, OP 0x13, format Z (42_charge_pump.md R171). -/
  | selectCp
  /-- XO_LOOKUP, OP 0x14, format Z (43_xo_trim.md R182). -/
  | xoLookup
  /-- CLASSIFY, OP 0x15, format Z (44_sequencer.md R218). -/
  | classify
  deriving DecidableEq, Repr

end Sys2Proof
end

