-- ==== Sys2Proof/WellFormed.lean ====
section
/-! DEFINITION. Well-formedness. A command is checked on its word: every value of `Instr` is the
reading of a legal word, because inline operands are whole bytes (30_encoding.md R94), so there is
nothing to check on the term; the words that are no command are refused by Decode.lean (R97). What an
instance must check is its field maps (40_bitfield_codec.md R127). -/

namespace Sys2Proof

/-- Every command term is well-formed: each inline operand is a byte and each format's other fields are
not part of the term (30_encoding.md R91, R94). -/
abbrev Instr.WellFormed (_ : Instr) : Prop := True

/-- The maps an instance may use (40_bitfield_codec.md R127). -/
abbrev FieldMaps.WellFormed (m : FieldMaps) : Prop := Machine.mapsOk m = true

end Sys2Proof
end

