-- ==== Sys2Proof/Decode.lean ====
section
/-! DEFINITION. The decoder of command words, total and refusing by name (30_encoding.md R90 to R98),
the encoder written from the same rules (R91, R93, R102), and the opcode table's rows (R98). -/

namespace Sys2Proof

/-- Why a word is illegal (30_encoding.md R97). -/
inductive Reject where
  /-- The OP value is not listed in R93. -/
  | unknownOpcode
  /-- A field the format marks as 0 is not zero (R92). -/
  | nonzeroField
  deriving DecidableEq, Repr

/-- OP, bits [7:0] (R90). -/
def opField (w : Word) : Byte := w.extractLsb' 0 8
/-- F1, bits [15:8]. -/
def f1Field (w : Word) : Byte := w.extractLsb' 8 8
/-- F2, bits [23:16]. -/
def f2Field (w : Word) : Byte := w.extractLsb' 16 8
/-- F3, bits [31:24]. -/
def f3Field (w : Word) : Byte := w.extractLsb' 24 8

/-- The word of four fields (R90). -/
def wordOfFields (op f1 f2 f3 : Byte) : Word := (f3 ++ f2 ++ f1 ++ op).setWidth 32

/-- Format Z: F1, F2 and F3 are zero (R91). -/
def formatZ (w : Word) (i : Instr) : Except Reject Instr :=
  if f1Field w = 0 ∧ f2Field w = 0 ∧ f3Field w = 0 then .ok i else .error .nonzeroField

/-- Formats U and X: F3 is zero (R91). -/
def formatF3Zero (w : Word) (i : Instr) : Except Reject Instr :=
  if f3Field w = 0 then .ok i else .error .nonzeroField

/-- The decoder of R98: look OP up, check the fields its format marks 0, and take the inline operands. -/
def decodeWord (w : Word) : Except Reject Instr :=
  if opField w = 0x01 then formatZ w .init
  else if opField w = 0x02 then formatZ w .setRate
  else if opField w = 0x03 then formatZ w .getRate
  else if opField w = 0x04 then formatZ w .roundRate
  else if opField w = 0x05 then formatZ w .bulkLoad
  else if opField w = 0x06 then formatF3Zero w (.setXoUser (f1Field w) (f2Field w))
  else if opField w = 0x07 then formatZ w .setXoTrim
  else if opField w = 0x08 then formatZ w .abort
  else if opField w = 0x10 then .ok (.pack (f1Field w) (f2Field w) (f3Field w))
  else if opField w = 0x11 then formatF3Zero w (.unpack (f1Field w) (f2Field w))
  else if opField w = 0x12 then formatZ w .solve
  else if opField w = 0x13 then formatZ w .selectCp
  else if opField w = 0x14 then formatZ w .xoLookup
  else if opField w = 0x15 then formatZ w .classify
  else .error .unknownOpcode

/-- The opcode of a command (R93). -/
def opcode : Instr → Byte
  | .init => 0x01
  | .setRate => 0x02
  | .getRate => 0x03
  | .roundRate => 0x04
  | .bulkLoad => 0x05
  | .setXoUser _ _ => 0x06
  | .setXoTrim => 0x07
  | .abort => 0x08
  | .pack _ _ _ => 0x10
  | .unpack _ _ => 0x11
  | .solve => 0x12
  | .selectCp => 0x13
  | .xoLookup => 0x14
  | .classify => 0x15

/-- The word a command assembles to (R102). -/
def encode : Instr → Word
  | .setXoUser oe vs => wordOfFields 0x06 oe vs 0
  | .pack mask byte value => wordOfFields 0x10 mask byte value
  | .unpack mask byte => wordOfFields 0x11 mask byte 0
  | .init => wordOfFields 0x01 0 0 0
  | .setRate => wordOfFields 0x02 0 0 0
  | .getRate => wordOfFields 0x03 0 0 0
  | .roundRate => wordOfFields 0x04 0 0 0
  | .bulkLoad => wordOfFields 0x05 0 0 0
  | .setXoTrim => wordOfFields 0x07 0 0 0
  | .abort => wordOfFields 0x08 0 0 0
  | .solve => wordOfFields 0x12 0 0 0
  | .selectCp => wordOfFields 0x13 0 0 0
  | .xoLookup => wordOfFields 0x14 0 0 0
  | .classify => wordOfFields 0x15 0 0 0

/-- A row of the opcode table: a word w selects it when `(w & mask) = match` (R98). -/
structure Row where
  mask  : Word
  value : Word
  deriving DecidableEq, Repr

/-- The rows of spec/opcode_table.json, in its order. -/
def opcodeRows : List Row :=
  [⟨0xFFFFFFFF, 0x00000001⟩, ⟨0xFFFFFFFF, 0x00000002⟩, ⟨0xFFFFFFFF, 0x00000003⟩,
   ⟨0xFFFFFFFF, 0x00000004⟩, ⟨0xFFFFFFFF, 0x00000005⟩, ⟨0xFF0000FF, 0x00000006⟩,
   ⟨0xFFFFFFFF, 0x00000007⟩, ⟨0xFFFFFFFF, 0x00000008⟩, ⟨0x000000FF, 0x00000010⟩,
   ⟨0xFF0000FF, 0x00000011⟩, ⟨0xFFFFFFFF, 0x00000012⟩, ⟨0xFFFFFFFF, 0x00000013⟩,
   ⟨0xFFFFFFFF, 0x00000014⟩, ⟨0xFFFFFFFF, 0x00000015⟩]

/-- The word w selects the row. -/
def Row.selects (r : Row) (w : Word) : Bool := w &&& r.mask == r.value

/-- The row of spec/opcode_table.json a command stands for. -/
def rowOf : Instr → Row
  | .init => ⟨0xFFFFFFFF, 0x00000001⟩
  | .setRate => ⟨0xFFFFFFFF, 0x00000002⟩
  | .getRate => ⟨0xFFFFFFFF, 0x00000003⟩
  | .roundRate => ⟨0xFFFFFFFF, 0x00000004⟩
  | .bulkLoad => ⟨0xFFFFFFFF, 0x00000005⟩
  | .setXoUser _ _ => ⟨0xFF0000FF, 0x00000006⟩
  | .setXoTrim => ⟨0xFFFFFFFF, 0x00000007⟩
  | .abort => ⟨0xFFFFFFFF, 0x00000008⟩
  | .pack _ _ _ => ⟨0x000000FF, 0x00000010⟩
  | .unpack _ _ => ⟨0xFF0000FF, 0x00000011⟩
  | .solve => ⟨0xFFFFFFFF, 0x00000012⟩
  | .selectCp => ⟨0xFFFFFFFF, 0x00000013⟩
  | .xoLookup => ⟨0xFFFFFFFF, 0x00000014⟩
  | .classify => ⟨0xFFFFFFFF, 0x00000015⟩

/-- The command my decoder reads from a word whose bits the opcode table numbers as w: PLL-FSC has one
32-bit word per command (R99), the bits above `nbits` being 0. -/
def decodeTableWord (nbits w : Nat) : Option Instr :=
  match decodeWord (BitVec.ofNat 32 (w % 2 ^ nbits)) with
  | .ok i => some i
  | .error _ => none

end Sys2Proof
end

