-- ==== Sys2Proof/Machine/State.lean ====
section
/-! DEFINITION. The state of PLL-FSC as plain data (10_state.md R20 to R45): ClockState, the STATUS
flags with the FSM state, the host register file, the two register images, the bulk buffer and the
hidden sequencing state; beside them the model's own fields (the parameters, the agents' coming moves
and the host's last read data). `State.reset` is the state after reset (70_reset_and_hazards.md R280). -/

namespace Sys2Proof.Machine

open Sys2Proof

/-- Why a step stops with a fault. PLL-FSC takes no trap (60_exceptions.md R255): every error is a code
that a command records when it finishes, so there is no such reason and no step faults. -/
inductive Fault
  deriving DecidableEq, Repr

/-- Why the model has no meaning for a step. -/
inductive Refusal where
  /-- Raised by an arm of `exec` whose instruction has no meaning yet; safe. No arm raises it. -/
  | notModelled (mnemonic : String)
  /-- Raised by `step` when a field map of the state is not well-formed: a model "must refuse a map
  that is not well-formed" (40_bitfield_codec.md R127); safe. -/
  | illFormedFieldMap
  deriving DecidableEq, Repr

/-- The class of a rate change (44_sequencer.md R205). -/
inductive RateClass where
  | small | large
  deriving DecidableEq, Repr

/-- How Solve found its result (41_divider_solver.md R140). -/
inductive SolveMode where
  | integer | fractional
  deriving DecidableEq, Repr

/-- A DividerSet (10_state.md R26). -/
structure DividerSet where
  outputDivider : BitVec 9
  feedbackInt   : BitVec 9
  feedbackFrac  : BitVec config.fracBits
  vcoHz         : BitVec 64
  deriving DecidableEq, Repr

/-- A mirror of the divider block (R41): DIV_LEN bytes. -/
abbrev DivImage := Vector Byte config.divLen

/-- A mirror of the XO block (R41): XO_LEN bytes. -/
abbrev XoImage := Vector Byte config.xoLen

/-- S.state (R40). The encodings 5 to 7 are never produced, so they are not values of this type. -/
inductive FsmState where
  | idle | computing | writing | committing | failed
  deriving DecidableEq, Repr

/-- The error codes of 60_exceptions.md R250. The codes 11 to 15 are never produced. -/
inductive ErrCode where
  | none | outOfRange | noDividerSolution | unsupportedReference | transportFailure | notInitialized
  | illegalCommand | illegalOperand | fieldOverflow | illegalState | aborted
  deriving DecidableEq, Repr

/-- ClockState (10_state.md R23 to R29). -/
structure ClockState where
  referenceHz : Word
  requestedHz : Word
  actualHz    : Word
  minHz       : Word
  maxHz       : Word
  dividers    : DividerSet
  chargePump  : BitVec 3
  xo          : XoSettings
  oeMode      : Byte
  vsel        : Byte
  deriving DecidableEq, Repr

/-- The fields of STATUS (R35), which are the controller flags (R39) and the FSM state (R40); the host
reads them as one word (Flags.lean). -/
structure Status where
  busy         : Bool
  fsm          : FsmState
  initialized  : Bool
  divValid     : Bool
  chipUndef    : Bool
  dropped      : Bool
  cls          : RateClass
  fracMode     : Bool
  abortPending : Bool
  err          : ErrCode
  lastOp       : Byte
  step         : BitVec 4
  deriving DecidableEq, Repr

/-- The host registers that hold something of their own (R31): CMD, ARG0 to ARG3, RES0 to RES3 and
PORTERR[7:0]. -/
structure HostRegs where
  cmd     : Word
  arg0    : Word
  arg1    : Word
  arg2    : Word
  arg3    : Word
  res0    : Word
  res1    : Word
  res2    : Word
  res3    : Word
  portErr : Byte
  deriving DecidableEq, Repr

/-- A buffer of BULK_LEN bytes as a list of (address, byte) pairs, addresses strictly rising and below BULK_LEN, no
entry equal to what an unlisted address reads as (Ops.lean: 0, the spec's reset value, R43). -/
abbrev Memory := List Host.Cell

/-- The command latch (R44): the accepted word's fields and the copy of ARG0 to ARG3. -/
structure Latch where
  op : Byte
  f1 : Byte
  f2 : Byte
  f3 : Byte
  a0 : Word
  a1 : Word
  a2 : Word
  a3 : Word
  deriving DecidableEq, Repr

/-- A register-port transaction (20_memory.md R60). -/
inductive Txn where
  /-- PortRead(addr, n). -/
  | read (addr : Byte) (n : Nat)
  /-- PortWrite(entries), each entry an (address, value) pair. -/
  | write (entries : List (Byte × Byte))
  deriving DecidableEq, Repr

/-- The register port's answer to the outstanding transaction (R61, R62). -/
inductive PortAnswer where
  /-- Ok. A read of n bytes returns the first n of `data` (n is DIV_LEN or XO_LEN, the longer); a write
  returns no data. -/
  | ok (data : XoImage)
  /-- Fail(code). -/
  | fail (code : Byte)
  deriving DecidableEq, Repr

/-- A host access: a whole word at a 12-bit offset (10_state.md R31, R38). -/
inductive HostAccess where
  | write (addr : BitVec 12) (data : Word)
  | read (addr : BitVec 12)
  deriving DecidableEq, Repr

/-- One move of one agent (00_scope.md R5, 20_memory.md R71, 70_reset_and_hazards.md R280). -/
inductive Event where
  /-- The host accesses a register. -/
  | host (access : HostAccess)
  /-- The port answers the outstanding transaction. -/
  | port (answer : PortAnswer)
  /-- The controller takes the first execution step of the accepted command. -/
  | ctrl
  /-- The platform resets the controller. -/
  | reset
  deriving DecidableEq, Repr

/-- The hidden sequencing state (10_state.md R44). `oeRead` and `vselRead` are INIT's locals oe and vs,
which live from its read to its write (44_sequencer.md R203). -/
structure Hidden where
  latch        : Latch
  solution     : DividerSet
  solutionMode : SolveMode
  cpCode       : BitVec 3
  oeRead       : Byte
  vselRead     : Byte
  snap         : Memory
  pending      : Option Txn
  wrote        : Bool
  deriving DecidableEq, Repr

/-- The state of PLL-FSC. `maps`, `inputs` and `readData` are the model's own (logs 3, 1 and 10). -/
structure State where
  /-- ClockState (R23 to R29). -/
  clock    : ClockState
  /-- The STATUS fields (R35). -/
  status   : Status
  /-- The host register file (R31). -/
  regs     : HostRegs
  /-- IMG_DIV (R41). -/
  imgDiv   : DivImage
  /-- IMG_XO (R41). -/
  imgXo    : XoImage
  /-- BULK (R43). -/
  bulk     : Memory
  /-- The hidden state (R44). -/
  hidden   : Hidden
  /-- FIELD_MAP_DIV and FIELD_MAP_XO (00_scope.md R7). No step changes it. -/
  maps     : FieldMaps
  /-- The agents' coming moves, next first (R5, R71). Nothing constrains it. -/
  inputs   : List Event
  /-- The word the host's last read returned. -/
  readData : Word
  deriving DecidableEq, Repr

/-- The all-zero DividerSet. -/
def DividerSet.zero : DividerSet :=
  { outputDivider := 0, feedbackInt := 0, feedbackFrac := 0, vcoHz := 0 }

/-- ClockState after reset: every field 0 (R280). -/
def ClockState.zero : ClockState :=
  { referenceHz := 0, requestedHz := 0, actualHz := 0, minHz := 0, maxHz := 0,
    dividers := DividerSet.zero, chargePump := 0,
    xo := { doublerDisabled := false, amplifierGm := 0, capX1 := 0, ampSlice := 0, capX2 := 0,
            overtoneDisabled := false, overtoneResistor := 0 },
    oeMode := 0, vsel := 0 }

/-- STATUS after reset: every flag 0, Idle, ERR = NONE (R280). -/
def Status.zero : Status :=
  { busy := false, fsm := .idle, initialized := false, divValid := false, chipUndef := false,
    dropped := false, cls := .small, fracMode := false, abortPending := false, err := .none,
    lastOp := 0, step := 0 }

/-- The host registers after reset: all 0 (R280). -/
def HostRegs.zero : HostRegs :=
  { cmd := 0, arg0 := 0, arg1 := 0, arg2 := 0, arg3 := 0, res0 := 0, res1 := 0, res2 := 0,
    res3 := 0, portErr := 0 }

/-- The hidden state after reset: empty, no transaction pending, S.wrote = 0 (R280). What "empty" is as
a value of each latch is DESIGN CHOICE zero (log 6). -/
def Hidden.empty : Hidden :=
  { latch := { op := 0, f1 := 0, f2 := 0, f3 := 0, a0 := 0, a1 := 0, a2 := 0, a3 := 0 },
    solution := DividerSet.zero, solutionMode := .integer, cpCode := 0, oeRead := 0, vselRead := 0,
    snap := [], pending := none, wrote := false }

/-- The machine right after reset (70_reset_and_hazards.md R280): everything the spec names is 0, Idle
or empty; the parameters are the reference instance, no agent's move is listed. -/
def State.reset : State :=
  { clock := ClockState.zero, status := Status.zero, regs := HostRegs.zero,
    imgDiv := Vector.replicate _ 0, imgXo := Vector.replicate _ 0, bulk := [],
    hidden := Hidden.empty, maps := Config.refMaps, inputs := [], readData := 0 }

end Sys2Proof.Machine
end

