-- ==== Sys2Proof/Machine/Ops.lean ====
section
/-! DEFINITION. The shared operations: the 256-byte buffers, the named updates of the state, the end of
a command (`finish`, 00_scope.md R11), issuing a port transaction and taking its answer (44_sequencer.md
R202), acceptance of a command word (R200, R201, R223) and reset (70_reset_and_hazards.md R280 to R282).
`finish e` is the one operation that records an error: PLL-FSC has no trap entry and no return
(60_exceptions.md R255, R257). -/

namespace Sys2Proof.Machine

open Sys2Proof

/-! ### The 256-byte buffers (10_state.md R43) -/

/-- What an unlisted byte of a buffer reads as: 0, the reset value of every BULK byte (R43; log 16). -/
def unlistedByte : Byte := 0

/-- Byte `a` of a buffer. -/
def readByte (m : Memory) (a : Byte) : Byte :=
  match m with
  | [] => unlistedByte
  | (k, b) :: rest => if k = a.toNat then b else readByte rest a

/-- The buffer with byte `a` set to `v`, in canonical form: a byte equal to `unlistedByte` is not
listed. -/
def writeByte (m : Memory) (a v : Byte) : Memory :=
  match m with
  | [] => if v = unlistedByte then [] else [(a.toNat, v)]
  | (k, b) :: rest =>
    if a.toNat < k then
      if v = unlistedByte then (k, b) :: rest else (a.toNat, v) :: (k, b) :: rest
    else if a.toNat = k then
      if v = unlistedByte then rest else (k, v) :: rest
    else (k, b) :: writeByte rest a v

/-- The canonical form from address `lo` on: addresses strictly rise, lie below BULK_LEN, and no listed byte
equals `unlistedByte`. -/
def canonicalFrom (lo : Nat) : Memory → Bool
  | [] => true
  | (k, b) :: rest => lo ≤ k && k < config.bulkLen && b != unlistedByte && canonicalFrom (k + 1) rest

/-- The buffer is in canonical form. -/
def Memory.wf (m : Memory) : Bool := canonicalFrom 0 m

/-- The four bytes of a BULK word (R43): byte 4k+j is in bits [8j+7:8j]. -/
def readBulkWord (m : Memory) (k : Nat) : Word :=
  wordOfBytes (readByte m (BitVec.ofNat 8 (4 * k))) (readByte m (BitVec.ofNat 8 (4 * k + 1)))
    (readByte m (BitVec.ofNat 8 (4 * k + 2))) (readByte m (BitVec.ofNat 8 (4 * k + 3)))

/-- A host write of BULK word k (R43). -/
def writeBulkWord (m : Memory) (k : Nat) (w : Word) : Memory :=
  writeByte (writeByte (writeByte (writeByte m
    (BitVec.ofNat 8 (4 * k)) (byteOfWord w 0)) (BitVec.ofNat 8 (4 * k + 1)) (byteOfWord w 1))
    (BitVec.ofNat 8 (4 * k + 2)) (byteOfWord w 2)) (BitVec.ofNat 8 (4 * k + 3)) (byteOfWord w 3)

/-! ### Named updates -/

/-- `S.state <- f`. -/
def setFsm (s : State) (f : FsmState) : State := { s with status := { s.status with fsm := f } }

/-- `S.class <- c`. -/
def setClass (s : State) (c : RateClass) : State := { s with status := { s.status with cls := c } }

/-- `S.chip_undef <- b`. -/
def setChipUndef (s : State) (b : Bool) : State :=
  { s with status := { s.status with chipUndef := b } }

/-- `S.dropped <- b`. -/
def setDropped (s : State) (b : Bool) : State := { s with status := { s.status with dropped := b } }

/-- `S.abort_pending <- b`. -/
def setAbortPending (s : State) (b : Bool) : State :=
  { s with status := { s.status with abortPending := b } }

/-- `STATUS.STEP <- min(STATUS.STEP + 1, 15)` (44_sequencer.md R202, R227). -/
def countWrite (s : State) : State :=
  { s with status := { s.status with step := if s.status.step = 15 then 15 else s.status.step + 1 } }

/-- `H[PORTERR] <- zext_32(c)` (10_state.md R36). -/
def setPortErr (s : State) (c : Byte) : State := { s with regs := { s.regs with portErr := c } }

/-- `RES0 <- w`. -/
def setRes0 (s : State) (w : Word) : State := { s with regs := { s.regs with res0 := w } }

/-- `RES1 <- w`. -/
def setRes1 (s : State) (w : Word) : State := { s with regs := { s.regs with res1 := w } }

/-- `RES2 <- w`. -/
def setRes2 (s : State) (w : Word) : State := { s with regs := { s.regs with res2 := w } }

/-- `RES3 <- w`. -/
def setRes3 (s : State) (w : Word) : State := { s with regs := { s.regs with res3 := w } }

/-- `IMG_DIV <- img`. -/
def setImgDiv (s : State) (img : DivImage) : State := { s with imgDiv := img }

/-- `IMG_XO <- img`. -/
def setImgXo (s : State) (img : XoImage) : State := { s with imgXo := img }

/-- The solver result latch and the selected charge-pump code (10_state.md R44). -/
def setSolution (s : State) (r : DividerSet) (mode : SolveMode) (cp : BitVec 3) : State :=
  { s with hidden := { s.hidden with solution := r, solutionMode := mode, cpCode := cp } }

/-- INIT's locals oe and vs (44_sequencer.md R203; log 8). -/
def setUserRead (s : State) (oe vs : Byte) : State :=
  { s with hidden := { s.hidden with oeRead := oe, vselRead := vs } }

/-- The agents' coming moves. -/
def setInputs (s : State) (es : List Event) : State := { s with inputs := es }

/-! ### The end of a command -/

/-- `finish(e)` of 00_scope.md R11: ERR, BUSY and a pending ABORT, and nothing else. -/
def finish (s : State) (e : ErrCode) : State :=
  { s with status := { s.status with err := e, busy := false, abortPending := false } }

/-! ### Port transactions (44_sequencer.md R202) -/

/-- `PortRead(addr, n)` is issued: it is outstanding until its answer comes. -/
def issueRead (s : State) (addr : Byte) (n : Nat) : State :=
  { s with hidden := { s.hidden with pending := some (.read addr n) } }

/-- `S.wrote <- 1` and `PortWrite(entries)` is issued. -/
def issueWrite (s : State) (entries : List (Byte × Byte)) : State :=
  { s with hidden := { s.hidden with pending := some (.write entries), wrote := true } }

/-- The outstanding transaction has been answered; the answer is taken from `inputs`. -/
def dropAnswer (s : State) : State :=
  { s with inputs := s.inputs.tail, hidden := { s.hidden with pending := none } }

/-- The port's answer, if it is the next move. -/
def nextAnswer (s : State) : Option PortAnswer :=
  match s.inputs with
  | .port r :: _ => some r
  | _ => none

/-- The rest of `Read` after `await` (R202), then the command's own code `k` on the data. With no answer
the controller waits (20_memory.md R70). -/
def onReadAnswer (k : State → XoImage → State) (s : State) : State :=
  match nextAnswer s with
  | none => s
  | some (.fail c) => finish (setFsm (setPortErr (dropAnswer s) c) .failed) .transportFailure
  | some (.ok data) =>
    if s.status.abortPending then finish (setFsm (dropAnswer s) .idle) .aborted
    else k (dropAnswer s) data

/-- The rest of `Write` after `await` (R202), then the command's own code `k`. -/
def onWriteAnswer (k : State → State) (s : State) : State :=
  match nextAnswer s with
  | none => s
  | some (.fail c) =>
    finish (setFsm (setChipUndef (setPortErr (dropAnswer s) c) true) .failed) .transportFailure
  | some (.ok _) => k (countWrite (dropAnswer s))

/-- The first execution step of a legal command (R202): a pending ABORT ends it, else its rule runs. -/
def firstStep (body : State → State) (s : State) : State :=
  if s.status.abortPending then finish s .aborted else body s

/-- One controller step of a port command: its first step, or the code after the `await` it stands at,
which the pending-transaction marker says (10_state.md R44; log 7). -/
def runPort (first : State → State) (afterRead : State → XoImage → State)
    (afterWrite : State → State) (s : State) : State :=
  match s.hidden.pending with
  | none => firstStep first s
  | some (.read _ _) => onReadAnswer afterRead s
  | some (.write _) => onWriteAnswer afterWrite s

/-- The step of an illegal word (R202, 30_encoding.md R97). -/
def illegalStep (s : State) : State := finish s .illegalCommand

/-! ### Acceptance (44_sequencer.md R200, R201, R223) -/

/-- The latch of an accepted word: its fields and a copy of ARG0 to ARG3. -/
def latchOf (r : HostRegs) (w : Word) : Latch :=
  { op := opField w, f1 := f1Field w, f2 := f2Field w, f3 := f3Field w,
    a0 := r.arg0, a1 := r.arg1, a2 := r.arg2, a3 := r.arg3 }

/-- `accept(w)` of R200. -/
def accept (s : State) (w : Word) : State :=
  { s with
    regs := { s.regs with cmd := w }
    status := { s.status with busy := true, dropped := false, lastOp := opField w, step := 0,
                              abortPending := false }
    hidden := { s.hidden with wrote := false, latch := latchOf s.regs w,
                              snap := if opField w = 0x05 then s.bulk else s.hidden.snap } }

/-- A host write of w to CMD: accepted when idle; while busy, ABORT as R223 says and every other word
dropped (R201). -/
def commandWrite (s : State) (w : Word) : State :=
  if s.status.busy = false then accept s w
  else if w = encode .abort then
    if s.status.abortPending then s
    else if s.hidden.wrote = false then setAbortPending s true
    else setDropped s true
  else setDropped s true

/-- The word in the command latch. -/
def latchedWord (s : State) : Word :=
  wordOfFields s.hidden.latch.op s.hidden.latch.f1 s.hidden.latch.f2 s.hidden.latch.f3

/-- The word w placed where the controller takes its next command: accepted, with nothing outstanding,
and the controller's move next (log 12). -/
def placeCommand (s : State) (w : Word) : State :=
  let t := accept s w
  { t with
    hidden := { t.hidden with pending := none }
    inputs := if s.inputs = [] then [] else .ctrl :: s.inputs }

/-! ### Reset (70_reset_and_hazards.md R280 to R282) -/

/-- The reset event: every piece of the spec's state takes its reset value, whatever was running; the
parameters, the agents' coming moves and the host's last read data are not the controller's. -/
def resetController (s : State) : State :=
  { State.reset with maps := s.maps, inputs := s.inputs, readData := s.readData }

end Sys2Proof.Machine
end

