-- ==== Sys2Proof/Machine/Operands.lean ====
section
/-! DEFINITION. Operand forms and result layouts (30_encoding.md R94 and R95): the latched ARG operands
as naturals, the 64-bit operand, and the XO word (43_xo_trim.md R183). -/

namespace Sys2Proof.Machine

open Sys2Proof

/-- The latched ARG0, an unsigned 32-bit value (R94). -/
def argA0 (s : State) : Nat := s.hidden.latch.a0.toNat
/-- The latched ARG1. -/
def argA1 (s : State) : Nat := s.hidden.latch.a1.toNat
/-- The latched ARG2. -/
def argA2 (s : State) : Nat := s.hidden.latch.a2.toNat
/-- The latched ARG3. -/
def argA3 (s : State) : Nat := s.hidden.latch.a3.toNat

/-- The one 64-bit operand, `{ARG1, ARG0}` with ARG1 as bits [63:32] (R94). -/
def argVco (s : State) : Nat := (s.hidden.latch.a1 ++ s.hidden.latch.a0).toNat

/-- XoWord(t) of R183: the seven fields, the reserved bits [3:2] zero. -/
def xoWord (t : XoSettings) : Word :=
  (t.capX2 ++ t.capX1 ++ t.overtoneResistor ++ t.ampSlice ++ t.amplifierGm ++ (0 : BitVec 2) ++
    BitVec.ofBool t.overtoneDisabled ++ BitVec.ofBool t.doublerDisabled).setWidth 32

/-- XoTuple(w) of R183, which ignores bits [3:2]. -/
def xoTuple (w : Word) : XoSettings :=
  { doublerDisabled := w.getLsbD 0, overtoneDisabled := w.getLsbD 1,
    amplifierGm := w.extractLsb' 4 4, ampSlice := w.extractLsb' 8 4,
    overtoneResistor := w.extractLsb' 12 4, capX1 := w.extractLsb' 16 8,
    capX2 := w.extractLsb' 24 8 }

/-- Bits [3:2] of an XO word, which a SET_XO_TRIM operand must have zero (30_encoding.md R96). -/
def xoReserved (w : Word) : BitVec 2 := w.extractLsb' 2 2

/-- RES0 of SOLVE and the DIVNO view: output_divider in [8:0], feedback_int in [24:16] (R95, 10_state.md
R31). -/
def divNoWord (r : DividerSet) : Word :=
  (r.feedbackInt ++ (0 : BitVec 7) ++ r.outputDivider).setWidth 32

/-- RES1 of SOLVE: feedback_frac in [23:0], bit 31 set in fractional mode (R95). -/
def solveFracWord (r : DividerSet) (mode : SolveMode) : Word :=
  (BitVec.ofBool (mode = .fractional) ++ r.feedbackFrac.setWidth 31).setWidth 32

/-- RES2 of SOLVE and the VCO_LO view. -/
def vcoLoWord (r : DividerSet) : Word := r.vcoHz.extractLsb' 0 32

/-- RES3 of SOLVE and the VCO_HI view. -/
def vcoHiWord (r : DividerSet) : Word := r.vcoHz.extractLsb' 32 32

end Sys2Proof.Machine
end

