-- ==== Sys2Proof/Machine/ChargePump.lean ====
section
/-! DEFINITION. The charge-pump selector (42_charge_pump.md R170) and the SELECT_CP command (R171). -/

namespace Sys2Proof.Machine

open Sys2Proof

/-- `SelectCP(vco)` of R170. -/
def selectChargePump (vco : Nat) : BitVec 3 :=
  if vco < config.cpBreak1 then 5
  else if vco < config.cpBreak2 then 4
  else if vco < config.cpBreak3 then 3
  else 2

/-- The rule of SELECT_CP (R171). -/
def selectCpRule (s : State) : State :=
  finish (setRes0 s ((selectChargePump (argVco s)).setWidth 32)) .none

/-- SELECT_CP (R171). -/
def execSelectCp (s : State) : Host.Outcome State Fault Refusal := .next (firstStep selectCpRule s)

end Sys2Proof.Machine
end

