-- ==== Sys2Proof/Machine/ClockTree.lean ====
section
/-! DEFINITION. The clock-tree calls GET_RATE and ROUND_RATE (44_sequencer.md R215, R217), the
classification of a rate change (R205) with its command CLASSIFY (R218), and ABORT's own execution step
(R223; what an ABORT word does to a running command is `commandWrite` of Ops.lean). -/

namespace Sys2Proof.Machine

open Sys2Proof

/-- The absolute difference `|a - b|` of 00_scope.md R9. -/
def absDiff (a b : Nat) : Nat := if a ≤ b then b - a else a - b

/-- `Classify(new, act)` of R205: the relative change, unsaturated, and the class. -/
def classifyChange (new act : Nat) : Nat × RateClass :=
  if act = 0 then (2 ^ 32 - 1, .large)
  else
    (absDiff new act * config.classScale / act,
      if absDiff new act * config.classScale / act < config.smallThreshold then .small else .large)

/-- The rule of GET_RATE (R215). -/
def getRateRule (s : State) : State :=
  if s.status.initialized then finish (setRes0 s s.clock.actualHz) .none
  else finish s .notInitialized

/-- GET_RATE (R215). -/
def execGetRate (s : State) : Host.Outcome State Fault Refusal := .next (firstStep getRateRule s)

/-- The rule of ROUND_RATE (R217). -/
def roundRateRule (s : State) : State := finish (setRes0 s s.hidden.latch.a0) .none

/-- ROUND_RATE (R217). -/
def execRoundRate (s : State) : Host.Outcome State Fault Refusal := .next (firstStep roundRateRule s)

/-- RES1 of CLASSIFY: 1 for Large, 0 for Small (R218). -/
def classWord : RateClass → Word
  | .small => 0
  | .large => 1

/-- The rule of CLASSIFY (R218): RES0 is saturated, the class is of the unsaturated change. -/
def classifyRule (s : State) : State :=
  finish (setRes1 (setRes0 s
    (BitVec.ofNat 32 (min (classifyChange (argA0 s) (argA1 s)).1 (2 ^ 32 - 1))))
    (classWord (classifyChange (argA0 s) (argA1 s)).2)) .none

/-- CLASSIFY (R218). -/
def execClassify (s : State) : Host.Outcome State Fault Refusal := .next (firstStep classifyRule s)

/-- The rule of an accepted ABORT: nothing to cancel (R223). -/
def abortRule (s : State) : State := finish s .none

/-- ABORT (R223). -/
def execAbort (s : State) : Host.Outcome State Fault Refusal := .next (firstStep abortRule s)

end Sys2Proof.Machine
end

