-- ==== Sys2Proof/Machine/Codec.lean ====
section
/-! DEFINITION. The bitfield codec (40_bitfield_codec.md): pack and unpack (R121, R122), the PACK and
UNPACK commands (R123, R124), and the field-level encoding of the register images (R126, R130 to
R132). -/

namespace Sys2Proof.Machine

open Sys2Proof

/-- The byte pack answers: the bits of `m` replaced by `v << lsb(m)` (R121, last line). -/
def packBits (e : Byte) (v : Nat) (m : Byte) : Byte := (e &&& ~~~m) ||| BitVec.ofNat 8 (v <<< lsb m)

/-- The value unpack answers: `(b & m) >> lsb(m)` (R122, last line). -/
def unpackBits (b m : Byte) : Nat := (b &&& m).toNat >>> lsb m

/-- `pack(e, v, m)` of R121. -/
def pack (e : Byte) (v : Nat) (m : Byte) : Except ErrCode Byte :=
  if m = 0 then .error .illegalOperand
  else if fits v m then .ok (packBits e v m)
  else .error .fieldOverflow

/-- `unpack(b, m)` of R122. -/
def unpack (b m : Byte) : Except ErrCode Nat :=
  if m = 0 then .error .illegalOperand else .ok (unpackBits b m)

/-! ### Images (R126): an image is the vector of its block's bytes -/

/-- Byte `off` of an image; an offset outside the block does not occur in a well-formed map (R127). -/
def imgByte {n : Nat} (img : Vector Byte n) (off : Nat) : Byte := img[off]?.getD 0

/-- The loop of PutField over the pieces: each takes the lowest value bits left. -/
def putPieces {n : Nat} (img : Vector Byte n) : List Piece → Nat → Except ErrCode (Vector Byte n)
  | [], _ => .ok img
  | p :: ps, v =>
    match pack (imgByte img p.off) (v % 2 ^ popcount p.mask) p.mask with
    | .error e => .error e
    | .ok b => putPieces (img.setIfInBounds p.off b) ps (v >>> popcount p.mask)

/-- `PutField(img, F, v)` of R126. -/
def putField {n : Nat} (img : Vector Byte n) (field : List Piece) (v : Nat) :
    Except ErrCode (Vector Byte n) :=
  if v ≥ 2 ^ width field then .error .fieldOverflow else putPieces img field v

/-- `GetField(img, F)` of R126. -/
def getField {n : Nat} (img : Vector Byte n) : List Piece → Nat
  | [] => 0
  | p :: ps => unpackBits (imgByte img p.off) p.mask + (getField img ps) <<< popcount p.mask

/-- PutField on an image that may already be an error. -/
def thenPut {n : Nat} (x : Except ErrCode (Vector Byte n)) (field : List Piece) (v : Nat) :
    Except ErrCode (Vector Byte n) :=
  match x with
  | .error e => .error e
  | .ok img => putField img field v

/-- `EncodeDiv(img, r, cp)` of R130. -/
def encodeDiv (m : DivMap) (img : DivImage) (r : DividerSet) (cp : BitVec 3) :
    Except ErrCode (DivImage) :=
  thenPut (thenPut (thenPut (putField img m.outputDivider r.outputDivider.toNat)
    m.feedbackInt r.feedbackInt.toNat) m.feedbackFrac r.feedbackFrac.toNat) m.chargePump cp.toNat

/-- `DecodeDiv(img)` of R131: (output_divider, feedback_int, feedback_frac, charge_pump). No command
uses it. -/
def decodeDiv (m : DivMap) (img : DivImage) : Nat × Nat × Nat × Nat :=
  (getField img m.outputDivider, getField img m.feedbackInt, getField img m.feedbackFrac,
    getField img m.chargePump)

/-- `EncodeXoTrim(img, t)` of R132, the fields in THW's order; a Boolean is stored as 1 for true. -/
def encodeXoTrim (m : XoMap) (img : XoImage) (t : XoSettings) : Except ErrCode (XoImage) :=
  thenPut (thenPut (thenPut (thenPut (thenPut (thenPut
    (putField img m.doublerDisabled t.doublerDisabled.toNat)
    m.amplifierGm t.amplifierGm.toNat) m.capX1 t.capX1.toNat) m.ampSlice t.ampSlice.toNat)
    m.capX2 t.capX2.toNat) m.overtoneDisabled t.overtoneDisabled.toNat)
    m.overtoneResistor t.overtoneResistor.toNat

/-- `EncodeXoUser(img, oe, vs)` of R132. -/
def encodeXoUser (m : XoMap) (img : XoImage) (oe vs : Byte) : Except ErrCode (XoImage) :=
  thenPut (putField img m.oeMode oe.toNat) m.vsel vs.toNat

/-- `DecodeXoUser(img)` of R132: oe_mode and vsel, each at most a byte wide (R127). -/
def decodeXoUser (m : XoMap) (img : XoImage) : Byte × Byte :=
  (BitVec.ofNat 8 (getField img m.oeMode), BitVec.ofNat 8 (getField img m.vsel))

/-- Every field of t fits its field of the XO map (44_sequencer.md R203, R222). -/
def trimFits (m : XoMap) (t : XoSettings) : Bool :=
  t.doublerDisabled.toNat < 2 ^ width m.doublerDisabled &&
    t.amplifierGm.toNat < 2 ^ width m.amplifierGm && t.capX1.toNat < 2 ^ width m.capX1 &&
    t.ampSlice.toNat < 2 ^ width m.ampSlice && t.capX2.toNat < 2 ^ width m.capX2 &&
    t.overtoneDisabled.toNat < 2 ^ width m.overtoneDisabled &&
    t.overtoneResistor.toNat < 2 ^ width m.overtoneResistor

/-- Both user values fit their fields (44_sequencer.md R220). -/
def userFits (m : XoMap) (oe vs : Byte) : Bool :=
  oe.toNat < 2 ^ width m.oeMode && vs.toNat < 2 ^ width m.vsel

/-! ### PACK and UNPACK -/

/-- The rule of PACK (R123). -/
def packRule (mask byte value : Byte) (s : State) : State :=
  match pack byte value.toNat mask with
  | .error e => finish s e
  | .ok r => finish (setRes0 s (r.setWidth 32)) .none

/-- PACK (R123). -/
def execPack (mask byte value : Byte) (s : State) : Host.Outcome State Fault Refusal :=
  .next (firstStep (packRule mask byte value) s)

/-- The rule of UNPACK (R124). -/
def unpackRule (mask byte : Byte) (s : State) : State :=
  match unpack byte mask with
  | .error e => finish s e
  | .ok v => finish (setRes0 s (BitVec.ofNat 32 v)) .none

/-- UNPACK (R124). -/
def execUnpack (mask byte : Byte) (s : State) : Host.Outcome State Fault Refusal :=
  .next (firstStep (unpackRule mask byte) s)

end Sys2Proof.Machine
end

