-- ==== Sys2Proof/Machine/Solver.lean ====
section
/-! DEFINITION. The divider solver (41_divider_solver.md R140 to R154), in naturals (00_scope.md R9), and
the SOLVE command (R152). -/

namespace Sys2Proof.Machine

open Sys2Proof

/-- The phase-detector frequency (R141). -/
def pfdOf (ref : Nat) (dd : Bool) : Nat := ref * (if dd then 1 else 2)

/-- The initial output-divider guess (R142). -/
def firstDivider (req : Nat) : Nat := 1 + config.fvcoMin / req

/-- How the integer-mode search ends (R144). -/
inductive SearchEnd where
  /-- `n < DIVN_MIN`: the stall (R145). -/
  | stall
  /-- No integer solution: the fallback runs. -/
  | exhausted
  /-- `rem = 0` at output divider `od`, with quotient n and VCO frequency vco. -/
  | exact (od n vco : Nat)
  deriving DecidableEq, Repr

/-- The loop of R143 from `od` on. `fuel` bounds the iterations; started with DIVO_MAX - od0, which is
the number of iterations the loop has at most. -/
def search (req pfd : Nat) : Nat → Nat → SearchEnd
  | 0, _ => .exhausted
  | fuel + 1, od =>
    if od < config.divoMax then
      if req * od > config.fvcoMax then .exhausted
      else if req * od / pfd < config.divnMin then .stall
      else if req * od / pfd > config.divnMax then .exhausted
      else if req * od % pfd = 0 then .exact od (req * od / pfd) (req * od)
      else search req pfd fuel (od + 1)
    else .exhausted

/-- Check of R143 and R150: a candidate within every bound, as a DividerSet. -/
def checkSolution (od n frac vco : Nat) (mode : SolveMode) : Option (DividerSet × SolveMode) :=
  if config.divoMin ≤ od ∧ od ≤ config.divoMax ∧ config.divnMin ≤ n ∧ n ≤ config.divnMax ∧
      frac < 2 ^ config.fracBits ∧ config.fvcoMin ≤ vco ∧ vco ≤ config.fvcoMax then
    some ({ outputDivider := BitVec.ofNat 9 od, feedbackInt := BitVec.ofNat 9 n,
            feedbackFrac := BitVec.ofNat config.fracBits frac, vcoHz := BitVec.ofNat 64 vco }, mode)
  else none

/-- The fractional part before the first rounding test: `(rem << 24) div pfd` (R146). -/
def truncatedFrac (vco pfd : Nat) : Nat := ((vco % pfd) <<< config.fracBits) / pfd

/-- frac after the first rounding test of R146. -/
def roundedFrac (vco pfd : Nat) : Nat :=
  if (vco % pfd * 10) / pfd ≥ 5 then truncatedFrac vco pfd + 1 else truncatedFrac vco pfd

/-- n after the second rounding test of R146, which uses the rounded frac. -/
def carriedInt (vco pfd : Nat) : Nat :=
  if (roundedFrac vco pfd * 10) >>> config.fracBits ≥ 5 then vco / pfd + 1 else vco / pfd

/-- The fractional fallback at the initial guess (R146). -/
def fallback (req pfd : Nat) : Option (DividerSet × SolveMode) :=
  checkSolution (firstDivider req) (carriedInt (req * firstDivider req) pfd)
    (roundedFrac (req * firstDivider req) pfd) (req * firstDivider req) .fractional

/-- `Solve(req, ref, dd)` of R143; `none` is NO_DIVIDER_SOLUTION. -/
def solveDividers (req ref : Nat) (dd : Bool) : Option (DividerSet × SolveMode) :=
  match search req (pfdOf ref dd) (config.divoMax - firstDivider req) (firstDivider req) with
  | .stall => none
  | .exact od n vco => checkSolution od n 0 vco .integer
  | .exhausted => fallback req (pfdOf ref dd)

/-- The rule of SOLVE (R152). -/
def solveRule (s : State) : State :=
  if s.hidden.latch.a2.extractLsb' 1 31 ≠ 0 ∨ argA0 s = 0 ∨ argA1 s = 0 then
    finish s .illegalOperand
  else
    match solveDividers (argA0 s) (argA1 s) (s.hidden.latch.a2.getLsbD 0) with
    | none => finish s .noDividerSolution
    | some (r, mode) =>
      finish (setRes3 (setRes2 (setRes1 (setRes0 s (divNoWord r)) (solveFracWord r mode))
        (vcoLoWord r)) (vcoHiWord r)) .none

/-- SOLVE (R152). -/
def execSolve (s : State) : Host.Outcome State Fault Refusal := .next (firstStep solveRule s)

end Sys2Proof.Machine
end

