-- ==== Sys2Proof/Machine/XoTrim.lean ====
section
/-! DEFINITION. The XO trim table (43_xo_trim.md R180) and the XO_LOOKUP command (R182). -/

namespace Sys2Proof.Machine

open Sys2Proof

/-- `XoLookup(ref)` of R180; `none` is UNSUPPORTED_REFERENCE. The tuples of bands 2 and 3 are free
values (R184; log 4). -/
def xoTrimOf (ref : Nat) : Option XoSettings :=
  if config.xoBand1Lo ≤ ref ∧ ref ≤ config.xoBand1Hi then some Config.xoBand1Tuple
  else if config.xoBand2Lo ≤ ref ∧ ref < config.xoBand2End then some Config.xoBand2Tuple
  else if config.xoBand3Lo ≤ ref ∧ ref ≤ config.xoBand3Hi then some Config.xoBand3Tuple
  else none

/-- The rule of XO_LOOKUP (R182). -/
def xoLookupRule (s : State) : State :=
  match xoTrimOf (argA0 s) with
  | none => finish s .unsupportedReference
  | some t => finish (setRes0 s (xoWord t)) .none

/-- XO_LOOKUP (R182). -/
def execXoLookup (s : State) : Host.Outcome State Fault Refusal := .next (firstStep xoLookupRule s)

end Sys2Proof.Machine
end

