-- ==== Sys2Proof/Machine/Sequencer.lean ====
section
/-! DEFINITION. The port commands of the frequency-update sequencer (44_sequencer.md): INIT (R203),
SET_RATE (R204 to R214), BULK_LOAD (R216), SET_XO_USER (R220) and SET_XO_TRIM (R222). Each is its first
execution step and the code after each `await`, put together by `runPort`. -/

namespace Sys2Proof.Machine

open Sys2Proof

/-- The entries of an image write: one per byte, ascending from `base` (20_memory.md R62). -/
def imageEntries (base : Byte) (bytes : List Byte) : List (Byte × Byte) :=
  match bytes with
  | [] => []
  | b :: bs => (base, b) :: imageEntries (base + 1) bs

/-- The divider block a read of DIV_LEN bytes returned. -/
def divBlock (data : XoImage) : DivImage :=
  Vector.ofFn fun i => data[i.val]'(Nat.lt_of_lt_of_le i.isLt (by decide))

/-- IMG_XO is encoded and its write issued, in the state Writing (R203, R220, R222). -/
def writeXoImage (s : State) (x : Except ErrCode (XoImage)) : State :=
  match x with
  | .error e => finish s e
  | .ok img =>
    issueWrite (setFsm (setImgXo s img) .writing) (imageEntries config.xoBase img.toList)

/-- The end of a port command that succeeded: Idle, NONE. -/
def succeed (s : State) : State := finish (setFsm s .idle) .none

/-! ### INIT (R203) -/

/-- INIT's first step: the checks in their order, then the read of the XO block. -/
def initFirst (s : State) : State :=
  if s.status.initialized then finish s .illegalState
  else if ¬ (config.partMinHz ≤ argA1 s ∧ argA1 s ≤ argA2 s ∧ argA2 s ≤ config.partMaxHz) then
    finish s .illegalOperand
  else
    match xoTrimOf (argA0 s) with
    | none => finish s .unsupportedReference
    | some t =>
      if argA3 s ≠ 0 ∧ ¬ (argA1 s ≤ argA3 s ∧ argA3 s ≤ argA2 s) then finish s .outOfRange
      else if trimFits s.maps.xo t then
        issueRead (setFsm s .computing) config.xoBase config.xoLen
      else finish s .fieldOverflow

/-- INIT after its read: the user fields are taken as read, the trim of the reference is encoded. The
trim is looked up again from the latched reference (log 8). -/
def initAfterRead (s : State) (data : XoImage) : State :=
  match xoTrimOf (argA0 s) with
  | none => finish s .unsupportedReference
  | some t =>
    writeXoImage
      (setUserRead s (decodeXoUser s.maps.xo data).1 (decodeXoUser s.maps.xo data).2)
      (encodeXoTrim s.maps.xo data t)

/-- The ClockState a successful INIT leaves (R203). -/
def initClock (s : State) (t : XoSettings) : ClockState :=
  { s.clock with
    referenceHz := s.hidden.latch.a0, minHz := s.hidden.latch.a1, maxHz := s.hidden.latch.a2,
    requestedHz := s.hidden.latch.a3, actualHz := s.hidden.latch.a3,
    xo := t, oeMode := s.hidden.oeRead, vsel := s.hidden.vselRead }

/-- INIT after its write. -/
def initAfterWrite (s : State) : State :=
  match xoTrimOf (argA0 s) with
  | none => finish s .unsupportedReference
  | some t =>
    succeed { s with
      clock := initClock s t
      status := { s.status with initialized := true, divValid := false, fracMode := false } }

/-- INIT (R203). -/
def execInit (s : State) : Host.Outcome State Fault Refusal :=
  .next (runPort initFirst initAfterRead initAfterWrite s)

/-! ### SET_RATE (R204 to R214) -/

/-- SET_RATE's first step (R206 to R209): the checks, the class, the solver and the selector, then the
read of the divider block. -/
def setRateFirst (s : State) : State :=
  if ¬ s.status.initialized then finish s .notInitialized
  else if argA0 s < s.clock.minHz.toNat ∨ argA0 s > s.clock.maxHz.toNat then finish s .outOfRange
  else
    let t := setFsm (setClass s (classifyChange (argA0 s) s.clock.actualHz.toNat).2) .computing
    match solveDividers (argA0 s) s.clock.referenceHz.toNat s.clock.xo.doublerDisabled with
    | none => finish (setFsm t .failed) .noDividerSolution
    | some (r, mode) =>
      issueRead (setSolution t r mode (selectChargePump r.vcoHz.toNat)) config.divBase config.divLen

/-- SET_RATE after its read (R210): the image is encoded in full, then its write is issued. -/
def setRateAfterRead (s : State) (data : XoImage) : State :=
  match encodeDiv s.maps.div (divBlock data) s.hidden.solution s.hidden.cpCode with
  | .error e => finish s e
  | .ok img =>
    issueWrite (setFsm (setImgDiv s img) .writing) (imageEntries config.divBase img.toList)

/-- The seven one-entry writes after the image write, in order (R211, R212). -/
def commitWrites (c : RateClass) : List (Byte × Byte) :=
  config.setupSeq.map (fun v => (config.ctrlAddr, v)) ++
    (match c with
     | .large => config.trigLarge
     | .small => config.trigSmall).map (fun v => (config.trigAddr, v))

/-- `commit(new, r, mode, cp)` of R213. -/
def commitRate (s : State) : State :=
  { s with
    clock := { s.clock with
      requestedHz := s.hidden.latch.a0, actualHz := s.hidden.latch.a0,
      dividers := s.hidden.solution, chargePump := s.hidden.cpCode }
    status := { s.status with
      divValid := true, fracMode := s.hidden.solutionMode = .fractional, chipUndef := false } }

/-- SET_RATE after a write that returned Ok and has been counted: with STEP = k, the next write is
number k of `commitWrites`; after the last one, the command commits (R204; log 7). -/
def setRateAfterWrite (s : State) : State :=
  match (commitWrites s.status.cls)[s.status.step.toNat - 1]? with
  | some e => issueWrite (setFsm s .committing) [e]
  | none => succeed (commitRate s)

/-- SET_RATE (R206). -/
def execSetRate (s : State) : Host.Outcome State Fault Refusal :=
  .next (runPort setRateFirst setRateAfterRead setRateAfterWrite s)

/-! ### BULK_LOAD (R216) -/

/-- The BULK_LEN entries of a bulk image, ascending. -/
def bulkEntries (snap : Memory) : List (Byte × Byte) :=
  (List.range config.bulkLen).map fun i => (BitVec.ofNat 8 i, readByte snap (BitVec.ofNat 8 i))

/-- BULK_LOAD's first step. -/
def bulkLoadFirst (s : State) : State :=
  if s.status.initialized then finish s .illegalState
  else issueWrite (setFsm s .writing) (bulkEntries s.hidden.snap)

/-- BULK_LOAD issues no read, so this is never reached (log 15). -/
def bulkLoadAfterRead (s : State) (_ : XoImage) : State := s

/-- BULK_LOAD (R216). -/
def execBulkLoad (s : State) : Host.Outcome State Fault Refusal :=
  .next (runPort bulkLoadFirst bulkLoadAfterRead succeed s)

/-! ### SET_XO_USER (R220) -/

/-- SET_XO_USER's first step. -/
def setXoUserFirst (oe vs : Byte) (s : State) : State :=
  if ¬ s.status.initialized then finish s .notInitialized
  else if userFits s.maps.xo oe vs then
    issueRead (setFsm s .computing) config.xoBase config.xoLen
  else finish s .fieldOverflow

/-- SET_XO_USER after its read. -/
def setXoUserAfterRead (oe vs : Byte) (s : State) (data : XoImage) : State :=
  writeXoImage s (encodeXoUser s.maps.xo data oe vs)

/-- SET_XO_USER after its write. -/
def setXoUserAfterWrite (oe vs : Byte) (s : State) : State :=
  succeed { s with clock := { s.clock with oeMode := oe, vsel := vs } }

/-- SET_XO_USER (R220). -/
def execSetXoUser (oe vs : Byte) (s : State) : Host.Outcome State Fault Refusal :=
  .next (runPort (setXoUserFirst oe vs) (setXoUserAfterRead oe vs) (setXoUserAfterWrite oe vs) s)

/-! ### SET_XO_TRIM (R222) -/

/-- The trim tuple of SET_XO_TRIM's operand. -/
def trimOperand (s : State) : XoSettings := xoTuple s.hidden.latch.a0

/-- SET_XO_TRIM's first step. -/
def setXoTrimFirst (s : State) : State :=
  if ¬ s.status.initialized then finish s .notInitialized
  else if xoReserved s.hidden.latch.a0 ≠ 0 then finish s .illegalOperand
  else if trimFits s.maps.xo (trimOperand s) then
    issueRead (setFsm s .computing) config.xoBase config.xoLen
  else finish s .fieldOverflow

/-- SET_XO_TRIM after its read. -/
def setXoTrimAfterRead (s : State) (data : XoImage) : State :=
  writeXoImage s (encodeXoTrim s.maps.xo data (trimOperand s))

/-- SET_XO_TRIM after its write: DIV_VALID falls when doubler_disabled changes. -/
def setXoTrimAfterWrite (s : State) : State :=
  succeed { s with
    clock := { s.clock with xo := trimOperand s }
    status := { s.status with
      divValid := if (trimOperand s).doublerDisabled = s.clock.xo.doublerDisabled then
        s.status.divValid else false } }

/-- SET_XO_TRIM (R222). -/
def execSetXoTrim (s : State) : Host.Outcome State Fault Refusal :=
  .next (runPort setXoTrimFirst setXoTrimAfterRead setXoTrimAfterWrite s)

end Sys2Proof.Machine
end

