-- ==== Sys2Proof/Machine/Dispatch.lean ====
section
/-! DEFINITION. One controller step of the running command: its first execution step, or the code after
the await it stands at (44_sequencer.md R202). -/

namespace Sys2Proof.Machine

open Sys2Proof

def exec (i : Instr) (s : State) : Host.Outcome State Fault Refusal :=
  match i with
  | .init => Sys2Proof.Machine.execInit s
  | .setRate => Sys2Proof.Machine.execSetRate s
  | .getRate => Sys2Proof.Machine.execGetRate s
  | .roundRate => Sys2Proof.Machine.execRoundRate s
  | .bulkLoad => Sys2Proof.Machine.execBulkLoad s
  | .setXoUser oe vs => Sys2Proof.Machine.execSetXoUser oe vs s
  | .setXoTrim => Sys2Proof.Machine.execSetXoTrim s
  | .abort => Sys2Proof.Machine.execAbort s
  | .pack mask byte value => Sys2Proof.Machine.execPack mask byte value s
  | .unpack mask byte => Sys2Proof.Machine.execUnpack mask byte s
  | .solve => Sys2Proof.Machine.execSolve s
  | .selectCp => Sys2Proof.Machine.execSelectCp s
  | .xoLookup => Sys2Proof.Machine.execXoLookup s
  | .classify => Sys2Proof.Machine.execClassify s

end Sys2Proof.Machine
end

