-- ==== Sys2Proof/Machine/Flags.lean ====
section
/-! DEFINITION. The STATUS word (10_state.md R35), PLL-FSC's only condition codes: the encodings of the
FSM state (R40), the class (R35) and the error code (60_exceptions.md R250), and their layout. -/

namespace Sys2Proof.Machine

open Sys2Proof

/-- The encoding of S.state (R40). -/
def fsmCode : FsmState → BitVec 3
  | .idle => 0
  | .computing => 1
  | .writing => 2
  | .committing => 3
  | .failed => 4

/-- STATUS.CLASS: 0 Small, 1 Large (R35). -/
def classBit : RateClass → Bool
  | .small => false
  | .large => true

/-- The error codes of R250. -/
def errCode : ErrCode → BitVec 4
  | .none => 0
  | .outOfRange => 1
  | .noDividerSolution => 2
  | .unsupportedReference => 3
  | .transportFailure => 4
  | .notInitialized => 5
  | .illegalCommand => 6
  | .illegalOperand => 7
  | .fieldOverflow => 8
  | .illegalState => 9
  | .aborted => 10

/-- STATUS as the host reads it (R35), from bit 31 down: reserved [31:28], STEP, LASTOP, ERR, reserved
[11], ABORTP, FRACMODE, CLASS, DROPPED, CHIP_UNDEF, DIV_VALID, INIT, STATE, BUSY. -/
def statusWord (t : Status) : Word :=
  ((0 : BitVec 4) ++ t.step ++ t.lastOp ++ errCode t.err ++ (0 : BitVec 1) ++
    BitVec.ofBool t.abortPending ++ BitVec.ofBool t.fracMode ++ BitVec.ofBool (classBit t.cls) ++
    BitVec.ofBool t.dropped ++ BitVec.ofBool t.chipUndef ++ BitVec.ofBool t.divValid ++
    BitVec.ofBool t.initialized ++ fsmCode t.fsm ++ BitVec.ofBool t.busy).setWidth 32

end Sys2Proof.Machine
end

