-- ==== Sys2Proof/Machine/HostPort.lean ====
section
/-! DEFINITION. The host's register window: the register map (10_state.md R31), the read-only views (R37,
R42), reads and writes of whole words (R38). -/

namespace Sys2Proof.Machine

open Sys2Proof

/-- What a host offset names (R31). -/
inductive HostReg where
  | cmd | status | arg0 | arg1 | arg2 | arg3 | res0 | res1 | res2 | res3 | portErr
  | refHz | reqHz | actHz | minHz | maxHz | divNo | frac | vcoLo | vcoHi | cp | xoSet | xoUser
  | imgDiv0 | imgDiv1 | imgXo0 | imgXo1
  /-- Word k of the BULK window. -/
  | bulk (k : Nat)
  | reserved
  deriving DecidableEq, Repr

/-- The register map (R31). The argument is the word number, the offset with bits [1:0] ignored (R38)
divided by 4. -/
def hostRegOfWord (k : Nat) : HostReg :=
  match k with
  | 0x00 => .cmd
  | 0x01 => .status
  | 0x02 => .arg0
  | 0x03 => .arg1
  | 0x04 => .arg2
  | 0x05 => .arg3
  | 0x06 => .res0
  | 0x07 => .res1
  | 0x08 => .res2
  | 0x09 => .res3
  | 0x0A => .portErr
  | 0x0C => .refHz
  | 0x0D => .reqHz
  | 0x0E => .actHz
  | 0x0F => .minHz
  | 0x10 => .maxHz
  | 0x11 => .divNo
  | 0x12 => .frac
  | 0x13 => .vcoLo
  | 0x14 => .vcoHi
  | 0x15 => .cp
  | 0x16 => .xoSet
  | 0x17 => .xoUser
  | 0x18 => .imgDiv0
  | 0x19 => .imgDiv1
  | 0x1A => .imgXo0
  | 0x1B => .imgXo1
  | k => if 0x40 ≤ k ∧ k < 0x40 + config.bulkLen / 4 then .bulk (k - 0x40) else .reserved

/-- The register an access at a 12-bit offset reaches (R38). -/
def hostReg (addr : BitVec 12) : HostReg := hostRegOfWord (addr.toNat / 4)

/-- The value of a host register (R31, R35 to R37, R42, R43); unused bits and reserved offsets read 0
(R38). -/
def regValue (s : State) : HostReg → Word
  | .cmd => s.regs.cmd
  | .status => statusWord s.status
  | .arg0 => s.regs.arg0
  | .arg1 => s.regs.arg1
  | .arg2 => s.regs.arg2
  | .arg3 => s.regs.arg3
  | .res0 => s.regs.res0
  | .res1 => s.regs.res1
  | .res2 => s.regs.res2
  | .res3 => s.regs.res3
  | .portErr => s.regs.portErr.setWidth 32
  | .refHz => s.clock.referenceHz
  | .reqHz => s.clock.requestedHz
  | .actHz => s.clock.actualHz
  | .minHz => s.clock.minHz
  | .maxHz => s.clock.maxHz
  | .divNo => divNoWord s.clock.dividers
  | .frac => s.clock.dividers.feedbackFrac.setWidth 32
  | .vcoLo => vcoLoWord s.clock.dividers
  | .vcoHi => vcoHiWord s.clock.dividers
  | .cp => s.clock.chargePump.setWidth 32
  | .xoSet => xoWord s.clock.xo
  | .xoUser => (s.clock.vsel ++ s.clock.oeMode).setWidth 32
  | .imgDiv0 => wordOfBytes s.imgDiv[0] s.imgDiv[1] s.imgDiv[2] s.imgDiv[3]
  | .imgDiv1 => wordOfBytes s.imgDiv[4] s.imgDiv[5] 0 0
  | .imgXo0 => wordOfBytes s.imgXo[0] s.imgXo[1] s.imgXo[2] s.imgXo[3]
  | .imgXo1 => wordOfBytes s.imgXo[4] s.imgXo[5] s.imgXo[6] s.imgXo[7]
  | .bulk k => readBulkWord s.bulk k
  | .reserved => 0

/-- The word a host read at `addr` returns. -/
def hostReadValue (s : State) (addr : BitVec 12) : Word := regValue s (hostReg addr)

/-- A host write to a register: CMD presents a command word (R34), ARG0 to ARG3 and BULK take the value
(R32, R43), every other register and every reserved offset ignores it (R38). -/
def writeReg (s : State) (r : HostReg) (w : Word) : State :=
  match r with
  | .cmd => commandWrite s w
  | .arg0 => { s with regs := { s.regs with arg0 := w } }
  | .arg1 => { s with regs := { s.regs with arg1 := w } }
  | .arg2 => { s with regs := { s.regs with arg2 := w } }
  | .arg3 => { s with regs := { s.regs with arg3 := w } }
  | .bulk k => { s with bulk := writeBulkWord s.bulk k w }
  | _ => s

/-- A host access. A read changes nothing but the word the host holds (R38; log 10). -/
def hostAccess (s : State) : HostAccess → State
  | .write addr w => writeReg s (hostReg addr) w
  | .read addr => { s with readData := hostReadValue s addr }

end Sys2Proof.Machine
end

