-- ==== Sys2Proof/Machine/Schedule.lean ====
section
/-! DEFINITION. Whose move is next (20_memory.md R71, 44_sequencer.md R202): the moves listed in `inputs`
in order, each atomic; with none listed the controller moves if it can, and otherwise nothing happens:
an idle controller stays idle, one whose transaction the port never answers stays stuck
(60_exceptions.md R261; logs 1 and 11). -/

namespace Sys2Proof.Machine

open Sys2Proof

/-- One controller step: an illegal latched word finishes ILLEGAL_COMMAND, a command runs its meaning
(R202). -/
def controllerStep (s : State) : Host.Outcome State Fault Refusal :=
  match decodeWord (latchedWord s) with
  | .error _ => .next (illegalStep s)
  | .ok i => exec i s

/-- A command is accepted and its first execution step has not run. -/
def firstStepDue (s : State) : Bool := s.status.busy && s.hidden.pending.isNone

/-- A running command waits for the port's answer. -/
def awaitingPort (s : State) : Bool := s.status.busy && s.hidden.pending.isSome

/-- The controller takes its first execution step if it is due. -/
def controllerMove (s : State) : Host.Outcome State Fault Refusal :=
  if firstStepDue s then controllerStep s else .next s

/-- The next move. An answer with no transaction outstanding is ignored (70_reset_and_hazards.md R282). -/
def takeMove (s : State) : Host.Outcome State Fault Refusal :=
  match s.inputs with
  | [] => controllerMove s
  | .ctrl :: rest => controllerMove (setInputs s rest)
  | .host a :: rest => .next (hostAccess (setInputs s rest) a)
  | .reset :: rest => .next (resetController (setInputs s rest))
  | .port _ :: rest => if awaitingPort s then controllerStep s else .next (setInputs s rest)

/-- One step of the whole: an instance with an ill-formed map is refused (40_bitfield_codec.md R127). -/
def stepOf (s : State) : Host.Outcome State Fault Refusal :=
  if mapsOk s.maps then takeMove s else .refused .illFormedFieldMap

end Sys2Proof.Machine
end

