-- ==== Sys2Proof/Machine/Step.lean ====
section
/-! DEFINITION. The step function, and where the next command word is placed. -/

namespace Sys2Proof.Machine

open Sys2Proof

/-- One step: the next agent's move (Schedule.lean). -/
def step (s : State) : Host.Outcome State Fault Refusal := stepOf s

/-- s with the word numbered w accepted as the next command, so that the next step runs exactly it
(log 12). -/
def State.withFetchWord (s : State) (nbits w : Nat) : State :=
  placeCommand s (BitVec.ofNat 32 (w % 2 ^ nbits))

end Sys2Proof.Machine
end

