-- ==== Sys2Proof/Machine/Script.lean ====
section
/-! DEFINITION. The host script syntax of 30_encoding.md R100 and the pseudo-commands of R101, as the host
accesses they stand for. `POLL` repeats `RD STATUS` until BUSY = 0: `pollDone` is its test; how often it
repeats depends on the run, so an expansion is split into what stands before `POLL` and the reads after
it. -/

namespace Sys2Proof.Machine

open Sys2Proof

/-- The offset of a host register (10_state.md R31); `reserved` stands for one reserved offset, 0x02C. -/
def hostOffset : HostReg → BitVec 12
  | .cmd => 0x000
  | .status => 0x004
  | .arg0 => 0x008
  | .arg1 => 0x00C
  | .arg2 => 0x010
  | .arg3 => 0x014
  | .res0 => 0x018
  | .res1 => 0x01C
  | .res2 => 0x020
  | .res3 => 0x024
  | .portErr => 0x028
  | .refHz => 0x030
  | .reqHz => 0x034
  | .actHz => 0x038
  | .minHz => 0x03C
  | .maxHz => 0x040
  | .divNo => 0x044
  | .frac => 0x048
  | .vcoLo => 0x04C
  | .vcoHi => 0x050
  | .cp => 0x054
  | .xoSet => 0x058
  | .xoUser => 0x05C
  | .imgDiv0 => 0x060
  | .imgDiv1 => 0x064
  | .imgXo0 => 0x068
  | .imgXo1 => 0x06C
  | .bulk k => BitVec.ofNat 12 (0x100 + 4 * k)
  | .reserved => 0x02C

/-- `WR <reg>, <value>` (R100). -/
def wr (r : HostReg) (v : Word) : HostAccess := .write (hostOffset r) v

/-- `RD <reg>` (R100). -/
def rd (r : HostReg) : HostAccess := .read (hostOffset r)

/-- `CMD <mnemonic> [<field>=<value>, ...]` (R100). -/
def cmd (i : Instr) : HostAccess := wr .cmd (encode i)

/-- `BULKB i, byte` (R100): the read-modify-write of the host word that holds byte i. -/
def bulkB (s : State) (i b : Byte) : HostAccess :=
  wr (.bulk (i.toNat / 4))
    (let w := readBulkWord s.bulk (i.toNat / 4)
     let m : Nat := i.toNat % 4
     wordOfBytes (if m = 0 then b else byteOfWord w 0) (if m = 1 then b else byteOfWord w 1)
       (if m = 2 then b else byteOfWord w 2) (if m = 3 then b else byteOfWord w 3))

/-- The test that ends `POLL`: BUSY = 0 in the word `RD STATUS` returns (R100). -/
def pollDone (s : State) : Bool := (hostReadValue s (hostOffset .status)).getLsbD 0 == false

/-- A pseudo-command (R101): the accesses before its `POLL`, and the reads after it. -/
structure Script where
  before : List HostAccess
  after  : List HostAccess
  deriving DecidableEq, Repr

/-- `init ref, min, max, initial`. -/
def scriptInit (ref min max initial : Word) : Script :=
  ⟨[wr .arg0 ref, wr .arg1 min, wr .arg2 max, wr .arg3 initial, cmd .init], []⟩
/-- `set_rate hz`. -/
def scriptSetRate (hz : Word) : Script := ⟨[wr .arg0 hz, cmd .setRate], []⟩
/-- `get_rate`. -/
def scriptGetRate : Script := ⟨[cmd .getRate], [rd .res0]⟩
/-- `round_rate hz`. -/
def scriptRoundRate (hz : Word) : Script := ⟨[wr .arg0 hz, cmd .roundRate], [rd .res0]⟩
/-- `bulk_load`. -/
def scriptBulkLoad : Script := ⟨[cmd .bulkLoad], []⟩
/-- `xo_user oe, vs`. -/
def scriptXoUser (oe vs : Byte) : Script := ⟨[cmd (.setXoUser oe vs)], []⟩
/-- `xo_trim w`. -/
def scriptXoTrim (w : Word) : Script := ⟨[wr .arg0 w, cmd .setXoTrim], []⟩
/-- `pack m, e, v`. -/
def scriptPack (m e v : Byte) : Script := ⟨[cmd (.pack m e v)], [rd .res0]⟩
/-- `unpack m, b`. -/
def scriptUnpack (m b : Byte) : Script := ⟨[cmd (.unpack m b)], [rd .res0]⟩
/-- `solve req, ref, dd`. -/
def scriptSolve (req ref dd : Word) : Script :=
  ⟨[wr .arg0 req, wr .arg1 ref, wr .arg2 dd, cmd .solve], [rd .res0, rd .res1, rd .res2, rd .res3]⟩
/-- `select_cp vco`. -/
def scriptSelectCp (vco : BitVec 64) : Script :=
  ⟨[wr .arg0 (vco.extractLsb' 0 32), wr .arg1 (vco.extractLsb' 32 32), cmd .selectCp], [rd .res0]⟩
/-- `xo_lookup ref`. -/
def scriptXoLookup (ref : Word) : Script := ⟨[wr .arg0 ref, cmd .xoLookup], [rd .res0]⟩
/-- `classify new, act`. -/
def scriptClassify (new act : Word) : Script :=
  ⟨[wr .arg0 new, wr .arg1 act, cmd .classify], [rd .res0, rd .res1]⟩

end Sys2Proof.Machine
end

