-- ==== Sys2Proof/Safety.lean ====
section
/-! DEFINITION. What counts as a good state, in the terms the statements use: the bounds of a committed
solution (10_state.md R26, R30, R150), where the sequencer stands (R40, R44, 44_sequencer.md R202, R224),
what a running port command has already checked, and the port transactions PLL-FSC may issue
(20_memory.md R64). -/

namespace Sys2Proof.Machine

open Sys2Proof

/-- The bounds of THW §3 on a DividerSet (R26, 41_divider_solver.md R150). -/
def DividerBounds (r : DividerSet) : Prop :=
  config.divoMin ≤ r.outputDivider.toNat ∧ r.outputDivider.toNat ≤ config.divoMax ∧
    config.divnMin ≤ r.feedbackInt.toNat ∧ r.feedbackInt.toNat ≤ config.divnMax ∧
    config.fvcoMin ≤ r.vcoHz.toNat ∧ r.vcoHz.toNat ≤ config.fvcoMax

/-- The 256-byte buffers are in canonical form. -/
def MemoryCanonical (s : State) : Prop := Memory.wf s.bulk = true ∧ Memory.wf s.hidden.snap = true

/-- The command that runs: busy, with a legal latched word. -/
def Running (s : State) (i : Instr) : Prop :=
  s.status.busy = true ∧ decodeWord (latchedWord s) = .ok i

/-- The commands that issue transactions (00_scope.md glossary, "Port command"). -/
def PortCommand : Instr → Prop
  | .init | .setRate | .bulkLoad | .setXoUser _ _ | .setXoTrim => True
  | .getRate | .roundRate | .abort | .pack _ _ _ | .unpack _ _ | .solve | .selectCp | .xoLookup
  | .classify => False

/-- The port commands that begin with a read. -/
def ReadingCommand : Instr → Prop
  | .init | .setRate | .setXoUser _ _ | .setXoTrim => True
  | .bulkLoad | .getRate | .roundRate | .abort | .pack _ _ _ | .unpack _ _ | .solve | .selectCp
  | .xoLookup | .classify => False

/-- What a running port command's first step has checked about its field values. -/
def FitsChecked (s : State) : Instr → Prop
  | .init => ∃ t, xoTrimOf s.hidden.latch.a0.toNat = some t ∧ trimFits s.maps.xo t = true
  | .setXoUser oe vs => userFits s.maps.xo oe vs = true
  | .setXoTrim => trimFits s.maps.xo (xoTuple s.hidden.latch.a0) = true
  | .setRate | .bulkLoad | .getRate | .roundRate | .abort | .pack _ _ _ | .unpack _ _ | .solve
  | .selectCp | .xoLookup | .classify => True

/-- Where the sequencer stands: what the pending-transaction marker, the FSM state, S.wrote, BUSY, a
pending ABORT and STEP say of one another. -/
structure SequencerInv (s : State) : Prop where
  /-- A transaction is outstanding only for a running port command. -/
  pending_running : s.hidden.pending.isSome = true → ∃ i, Running s i ∧ PortCommand i
  /-- Nothing outstanding: the FSM rests (R225). -/
  resting : s.hidden.pending = none → s.status.fsm = .idle ∨ s.status.fsm = .failed
  /-- A read is outstanding: Computing, nothing written yet. -/
  reading : ∀ a n, s.hidden.pending = some (.read a n) →
    s.status.fsm = .computing ∧ s.hidden.wrote = false ∧ s.status.step = 0 ∧
      ∃ i, Running s i ∧ ReadingCommand i
  /-- A write is outstanding: Writing before the first counted write, Committing after it. -/
  writing : ∀ es, s.hidden.pending = some (.write es) → s.hidden.wrote = true ∧
    ((s.status.fsm = .writing ∧ s.status.step = 0) ∨
      (s.status.fsm = .committing ∧ 1 ≤ s.status.step.toNat ∧ s.status.step.toNat ≤ 7 ∧
        Running s .setRate))
  /-- Before the first execution step nothing is written and STEP is 0. -/
  fresh : s.status.busy = true → s.hidden.pending = none →
    s.hidden.wrote = false ∧ s.status.step = 0
  /-- An ABORT is pending only while cancellation is free (R223). -/
  abort_free : s.status.abortPending = true → s.status.busy = true ∧ s.hidden.wrote = false
  /-- While a transaction is outstanding, the field values to encode fit their fields. -/
  fits : s.hidden.pending.isSome = true → ∀ i, Running s i → FitsChecked s i
  /-- STEP never passes 8 (R227). -/
  step_le : s.status.step.toNat ≤ 8
  /-- CMD and LASTOP are those of the latched word (R34, R35, R200). -/
  latched : s.regs.cmd = latchedWord s ∧ s.status.lastOp = s.hidden.latch.op

/-- What a port command has established once it has issued its first transaction. -/
def CheckedSoFar (s : State) : Instr → Prop
  | .init => s.status.initialized = false ∧
      s.hidden.latch.a1.toNat ≤ s.hidden.latch.a2.toNat ∧
      (s.hidden.latch.a3 ≠ 0 →
        s.hidden.latch.a1.toNat ≤ s.hidden.latch.a3.toNat ∧
          s.hidden.latch.a3.toNat ≤ s.hidden.latch.a2.toNat)
  | .setRate => s.status.initialized = true ∧
      s.clock.minHz.toNat ≤ s.hidden.latch.a0.toNat ∧
      s.hidden.latch.a0.toNat ≤ s.clock.maxHz.toNat ∧
      DividerBounds s.hidden.solution ∧
      s.hidden.solution.vcoHz.toNat =
        s.hidden.latch.a0.toNat * s.hidden.solution.outputDivider.toNat ∧
      (s.hidden.solution.feedbackFrac ≠ 0 → s.hidden.solutionMode = .fractional) ∧
      2 ≤ s.hidden.cpCode.toNat ∧ s.hidden.cpCode.toNat ≤ 5
  | .bulkLoad => s.status.initialized = false
  | .setXoUser _ _ => s.status.initialized = true
  | .setXoTrim => s.status.initialized = true
  | .getRate | .roundRate | .abort | .pack _ _ _ | .unpack _ _ | .solve | .selectCp | .xoLookup
  | .classify => False

/-- The invariants of ClockState (10_state.md R30), with what makes them inductive. -/
structure ClockInv (s : State) : Prop where
  /-- R30: min_hz <= actual_hz <= max_hz once initialized, unless the rate is unknown. -/
  rate_in_bounds : s.status.initialized = true → s.clock.actualHz ≠ 0 →
    s.clock.minHz.toNat ≤ s.clock.actualHz.toNat ∧ s.clock.actualHz.toNat ≤ s.clock.maxHz.toNat
  /-- R30: the divider bounds hold whenever DIV_VALID = 1. -/
  dividers_in_bounds : s.status.divValid = true → DividerBounds s.clock.dividers
  /-- R30: vco_hz = requested_hz * output_divider exactly whenever DIV_VALID = 1. -/
  vco_exact : s.status.divValid = true →
    s.clock.dividers.vcoHz.toNat =
      s.clock.requestedHz.toNat * s.clock.dividers.outputDivider.toNat
  /-- R30: a non-zero feedback_frac implies FRACMODE. -/
  frac_mode : s.clock.dividers.feedbackFrac ≠ 0 → s.status.fracMode = true
  /-- R27: a committed charge-pump code is 2 to 5. -/
  pump_range : s.status.divValid = true →
    2 ≤ s.clock.chargePump.toNat ∧ s.clock.chargePump.toNat ≤ 5
  /-- Both rates are always written together (R24). -/
  rates_equal : s.clock.requestedHz = s.clock.actualHz
  /-- Until an INIT succeeds ClockState holds its reset value (R23 to R29). -/
  unset : s.status.initialized = false → s.clock = ClockState.zero ∧ s.status.divValid = false
  /-- A running port command's checks hold until it ends. -/
  checked : ∀ i, Running s i → s.hidden.pending.isSome = true → CheckedSoFar s i

/-- The invariant of the whole machine. -/
structure MachineInv (s : State) : Prop where
  memory    : MemoryCanonical s
  sequencer : SequencerInv s
  clock     : ClockInv s

/-- The transitions of S.state that 44_sequencer.md R224 lists, from one step to the next. A step in which
SET_RATE finds no solution passes through Computing, so it shows as a move to Failed. -/
def FsmMove : FsmState → FsmState → Prop
  | .idle, .idle | .idle, .computing | .idle, .writing | .idle, .failed => True
  | .failed, .failed | .failed, .computing | .failed, .writing => True
  | .computing, .computing | .computing, .failed | .computing, .idle | .computing, .writing => True
  | .writing, .writing | .writing, .committing | .writing, .idle | .writing, .failed => True
  | .committing, .committing | .committing, .idle | .committing, .failed => True
  | _, _ => False

/-- The `n` chip addresses of a block from `base` up (20_memory.md R62). -/
def blockAddresses (base : Byte) (n : Nat) : List Byte :=
  (List.range n).map fun i => base + BitVec.ofNat 8 i

/-- A transaction PLL-FSC may issue (20_memory.md R64): the two reads, the two image writes, a one-entry
write of a setup byte to the control register or of a trigger byte to the trigger register, the bulk write
of every chip register. -/
def LegalTxn : Txn → Prop
  | .read a n =>
      (a = config.divBase ∧ n = config.divLen) ∨ (a = config.xoBase ∧ n = config.xoLen)
  | .write es =>
      es.map Prod.fst = blockAddresses config.divBase config.divLen ∨
      es.map Prod.fst = blockAddresses config.xoBase config.xoLen ∨
      (∃ v, es = [(config.ctrlAddr, v)] ∧ v ∈ config.setupSeq) ∨
      (∃ v, es = [(config.trigAddr, v)] ∧ (v ∈ config.trigLarge ∨ v ∈ config.trigSmall)) ∨
      es.map Prod.fst = blockAddresses 0 config.bulkLen

/-- `new` is `old` with each listed field holding its value and every bit that belongs to no listed field
as it was (40_bitfield_codec.md R126). -/
def FieldsWritten {n : Nat} (old new : Vector Byte n) (fields : List (List Piece × Nat)) : Prop :=
  (∀ f ∈ fields, getField new f.1 = f.2) ∧
    ∀ (i j : Nat) (h : i < n), j < 8 →
      (∀ f ∈ fields, ∀ p ∈ f.1, p.off = i → p.mask.getLsbD j = false) →
      new[i].getLsbD j = old[i].getLsbD j

/-- The seven trim fields of an XO map with the values of a tuple (R132; a Boolean is 1 for true). -/
def trimFields (m : XoMap) (t : XoSettings) : List (List Piece × Nat) :=
  [(m.doublerDisabled, t.doublerDisabled.toNat), (m.amplifierGm, t.amplifierGm.toNat),
   (m.capX1, t.capX1.toNat), (m.ampSlice, t.ampSlice.toNat), (m.capX2, t.capX2.toNat),
   (m.overtoneDisabled, t.overtoneDisabled.toNat),
   (m.overtoneResistor, t.overtoneResistor.toNat)]

/-- The four fields of a divider map with the values of a DividerSet and a pump code (R130). -/
def divFields (m : DivMap) (r : DividerSet) (cp : BitVec 3) : List (List Piece × Nat) :=
  [(m.outputDivider, r.outputDivider.toNat), (m.feedbackInt, r.feedbackInt.toNat),
   (m.feedbackFrac, r.feedbackFrac.toNat), (m.chargePump, cp.toNat)]

/-- k is `lsb(m)` (00_scope.md R10): the index of the lowest set bit of a non-zero mask. -/
def IsLowestBit (m : Byte) (k : Nat) : Prop :=
  m.getLsbD k = true ∧ ∀ j, j < k → m.getLsbD j = false

/-- `fits(v, m)` of 40_bitfield_codec.md R120 with k = lsb(m): each set bit of `v << k` lies in m. -/
def FitsAt (v : Nat) (m : Byte) (k : Nat) : Prop :=
  ∀ i, v.testBit i = true → m.getLsbD (i + k) = true

/-- The next move is a reset of the platform. -/
def ResetNext (s : State) : Prop := ∃ rest, s.inputs = .reset :: rest

end Sys2Proof.Machine
end

