-- ==== Sys2Proof/Certificates/Slice0/Obligations.lean ====
section
/-! DEFINITION. The statements for the provers, taken from the numbered rules of spec/. A statement about
an instruction's next state gives that state whole, so what it does not list is unchanged. -/

open Sys2Proof Sys2Proof.Machine

/-! ### Encoding (30_encoding.md) -/

/-- R98, R102: decoding the word a command assembles to gives the command back, with every inline operand
at every value. -/
def Obligations.DecodeEncodeRoundTrip : Prop :=
  ∀ i : Instr, i.WellFormed → decodeWord (encode i) = .ok i

/-- R98: a word is a command exactly when it selects that command's row of the opcode table and is the word
the command assembles to; every word a row selects is a command of that row; at most one row matches. -/
def Obligations.DecodeFollowsOpcodeTable : Prop :=
  (∀ (w : Word) (i : Instr),
    decodeWord w = .ok i ↔ (rowOf i).selects w = true ∧ encode i = w) ∧
  (∀ w : Word, ∀ r ∈ opcodeRows, r.selects w = true →
    ∃ i, decodeWord w = .ok i ∧ rowOf i = r) ∧
  (∀ w : Word, ∀ r ∈ opcodeRows, ∀ r' ∈ opcodeRows,
    r.selects w = true → r'.selects w = true → r = r')

/-- R97: the illegal words are those whose OP is 0x00, 0x09 to 0x0F or 0x16 to 0xFF, and those of a listed
OP whose zero fields are not zero (format Z: F1 to F3; formats U and X: F3). -/
def Obligations.IllegalWordsRefused : Prop :=
  ∀ w : Word,
    (decodeWord w = .error .unknownOpcode ↔
      opField w = 0 ∨ (0x09 ≤ (opField w).toNat ∧ (opField w).toNat ≤ 0x0F) ∨
        0x16 ≤ (opField w).toNat) ∧
    (decodeWord w = .error .nonzeroField ↔
      (opField w ∈ ([0x01, 0x02, 0x03, 0x04, 0x05, 0x07, 0x08, 0x12, 0x13, 0x14, 0x15] : List Byte) ∧
        256 ≤ w.toNat) ∨
      (opField w ∈ ([0x06, 0x11] : List Byte) ∧ 2 ^ 24 ≤ w.toNat))

/-- R102, R100 and 95_test_vectors.md: a few command words. -/
def Obligations.SpecWordsDecode : Prop :=
  decodeWord 0x00000001 = .ok .init ∧ decodeWord 0x00000002 = .ok .setRate ∧
  decodeWord 0x00020106 = .ok (.setXoUser 1 2) ∧ decodeWord 0x00000008 = .ok .abort ∧
  decodeWord 0x05E31C10 = .ok (.pack 0x1C 0xE3 5) ∧
  decodeWord 0x00F31C11 = .ok (.unpack 0x1C 0xF3) ∧ decodeWord 0x00000012 = .ok .solve ∧
  decodeWord 0x00000013 = .ok .selectCp ∧ decodeWord 0x00000014 = .ok .xoLookup ∧
  decodeWord 0x00000015 = .ok .classify ∧ decodeWord 0x00000108 = .error .nonzeroField

/-! ### The step and the command protocol (44_sequencer.md R200 to R202, R223) -/

/-- R71, R202: the step runs the decoded command. With well-formed maps, the controller's move runs the
latched command when its first execution step is due (with no move listed, or on the move `ctrl`); a port
answer runs it when a transaction is outstanding and is ignored otherwise; a host access and a reset are
one step each; with no move listed a controller that waits for the port or is idle stays as it is (R261).
That the agents' moves are listed in the state, that a step without a move changes nothing, and what a
reset keeps are the model's choices (logs 1, 11 and 17). -/
def Obligations.StepTakesNextMove : Prop :=
  ∀ s : State, mapsOk s.maps = true →
    (∀ i, decodeWord (latchedWord s) = .ok i → s.status.busy = true →
      (s.hidden.pending = none → s.inputs = [] → step s = exec i s) ∧
      (∀ rest, s.hidden.pending = none → s.inputs = .ctrl :: rest →
        step s = exec i { s with inputs := rest }) ∧
      (∀ a rest, s.hidden.pending.isSome = true → s.inputs = .port a :: rest → step s = exec i s)) ∧
    (∀ a rest, s.inputs = .host a :: rest → step s = .next (hostAccess { s with inputs := rest } a)) ∧
    (∀ rest, s.inputs = .reset :: rest →
      step s = .next { State.reset with maps := s.maps, inputs := rest, readData := s.readData }) ∧
    (∀ a rest, s.inputs = .port a :: rest → (s.status.busy = false ∨ s.hidden.pending = none) →
      step s = .next { s with inputs := rest }) ∧
    (s.inputs = [] → (s.status.busy = false ∨ s.hidden.pending.isSome = true) → step s = .next s)

/-- R92, R97, R202: an illegal latched word finishes with ILLEGAL_COMMAND at its first execution step
(with no move listed, or on the move `ctrl`), a pending ABORT notwithstanding, and changes nothing else. That
the agents' moves are listed in the state, and that the controller moves when none is, are the model's choice
(log 1). -/
def Obligations.IllegalWordFinishes : Prop :=
  ∀ (s : State) (e : Reject) (done : Status), mapsOk s.maps = true → s.status.busy = true →
    s.hidden.pending = none → decodeWord (latchedWord s) = .error e →
    done = { s.status with err := .illegalCommand, busy := false, abortPending := false } →
    (s.inputs = [] → step s = .next { s with status := done }) ∧
    (∀ rest, s.inputs = .ctrl :: rest → step s = .next { s with inputs := rest, status := done })

/-- R200: a host write of any word w to CMD while BUSY = 0 is accepted in one step: CMD, BUSY, DROPPED,
LASTOP, STEP, the first-write marker, a pending ABORT, the latch, and for OP 0x05 the BULK snapshot. -/
def Obligations.CommandAccepted : Prop :=
  ∀ (s : State) (w : Word), s.status.busy = false →
    hostAccess s (.write 0x000 w) = { s with
      regs := { s.regs with cmd := w }
      status := { s.status with busy := true, dropped := false, lastOp := w.extractLsb' 0 8, step := 0,
                                abortPending := false }
      hidden := { s.hidden with
        wrote := false
        latch := { op := w.extractLsb' 0 8, f1 := w.extractLsb' 8 8, f2 := w.extractLsb' 16 8,
                   f3 := w.extractLsb' 24 8, a0 := s.regs.arg0, a1 := s.regs.arg1,
                   a2 := s.regs.arg2, a3 := s.regs.arg3 }
        snap := if w.extractLsb' 0 8 = 0x05 then s.bulk else s.hidden.snap } }

/-- R201, R223: a word written to CMD while BUSY = 1 is dropped and only DROPPED changes, but for the ABORT
word, which is pending while nothing has been written, has no effect while one is pending, and is dropped
after the first write. -/
def Obligations.BusyCommandDroppedOrAborts : Prop :=
  ∀ (s : State) (w : Word), s.status.busy = true →
    hostAccess s (.write 0x000 w) =
      if w = 0x00000008 ∧ s.status.abortPending = true then s
      else if w = 0x00000008 ∧ s.hidden.wrote = false then
        { s with status := { s.status with abortPending := true } }
      else { s with status := { s.status with dropped := true } }

/-- R202, R223: a pending ABORT ends any legal command at its first execution step with ABORTED, with
nothing but STATUS changed; and at the Ok answer of a port command's read, with STATE Idle, no image loaded
and no write issued. -/
def Obligations.PendingAbortResolves : Prop :=
  (∀ (i : Instr) (s : State), s.status.abortPending = true → s.hidden.pending = none →
    exec i s = .next { s with
      status := { s.status with err := .aborted, busy := false, abortPending := false } }) ∧
  (∀ (i : Instr) (s : State) (a : Byte) (n : Nat) (d : Vector Byte 8) (rest : List Event),
    ReadingCommand i → s.status.abortPending = true → s.hidden.pending = some (.read a n) →
    s.inputs = .port (.ok d) :: rest →
    exec i s = .next { s with
      inputs := rest
      hidden := { s.hidden with pending := none }
      status := { s.status with
        fsm := .idle, err := .aborted, busy := false, abortPending := false } })

/-- R63, R202, R223: a Fail(code) answer to a read sets PORTERR and STATE = Failed and ends the command
with TRANSPORT_FAILURE, a pending ABORT notwithstanding; to a write it sets CHIP_UNDEF as well. Nothing
else changes. -/
def Obligations.PortFailureRecorded : Prop :=
  ∀ (i : Instr) (s : State) (c : Byte) (rest : List Event), s.inputs = .port (.fail c) :: rest →
    (∀ a n, ReadingCommand i → s.hidden.pending = some (.read a n) →
      exec i s = .next { s with
        inputs := rest
        hidden := { s.hidden with pending := none }
        regs := { s.regs with portErr := c }
        status := { s.status with
          fsm := .failed, err := .transportFailure, busy := false, abortPending := false } }) ∧
    (∀ es, PortCommand i → s.hidden.pending = some (.write es) →
      exec i s = .next { s with
        inputs := rest
        hidden := { s.hidden with pending := none }
        regs := { s.regs with portErr := c }
        status := { s.status with
          chipUndef := true, fsm := .failed, err := .transportFailure, busy := false,
          abortPending := false } })

/-- R32, R71, R287: a controller step does not see what the host writes to ARG0 to ARG3 and BULK after
acceptance: with other values there, the step is the same but for those values. -/
def Obligations.LateHostWritesUnseen : Prop :=
  ∀ (i : Instr) (s t : State) (b0 b1 b2 b3 : Word) (m : Memory), exec i s = .next t →
    exec i { s with
        regs := { s.regs with arg0 := b0, arg1 := b1, arg2 := b2, arg3 := b3 }, bulk := m } =
      .next { t with
        regs := { t.regs with arg0 := b0, arg1 := b1, arg2 := b2, arg3 := b3 }, bulk := m }

/-! ### The host's window (10_state.md) -/

/-- R31 to R34, R38: a host read at any offset returns the register of its word, whatever bits [1:0] are, and
changes nothing else (the word the host holds apart); CMD, ARG0 to ARG3 and RES0 to RES3 stand at their
offsets; a reserved offset reads 0; a write at any offset of ARGk's word sets that register alone; a write to
a reserved offset or to a register that is not CMD, ARG0 to ARG3 or BULK is ignored. -/
def Obligations.HostAccessesAreWholeWords : Prop :=
  (∀ (s : State) (a : BitVec 12), hostAccess s (.read a) = { s with readData := hostReadValue s a }) ∧
  (∀ (s : State) (a b : BitVec 12), a.toNat / 4 = b.toNat / 4 →
    hostReadValue s a = hostReadValue s b ∧
      ∀ w, hostAccess s (.write a w) = hostAccess s (.write b w)) ∧
  (∀ (s : State) (a : BitVec 12),
    (a.toNat / 4 = 0x0B ∨ (0x070 ≤ a.toNat ∧ a.toNat < 0x100) ∨ 0x200 ≤ a.toNat) →
    hostReadValue s a = 0) ∧
  (∀ (s : State) (a : BitVec 12) (w : Word),
    ((4 ≤ a.toNat ∧ a.toNat < 8) ∨ (0x018 ≤ a.toNat ∧ a.toNat < 0x100) ∨ 0x200 ≤ a.toNat) →
    hostAccess s (.write a w) = s) ∧
  (∀ (s : State) (a : BitVec 12) (w : Word), 0x008 ≤ a.toNat → a.toNat < 0x018 →
    hostAccess s (.write a w) = { s with regs :=
      if a.toNat < 0x00C then { s.regs with arg0 := w }
      else if a.toNat < 0x010 then { s.regs with arg1 := w }
      else if a.toNat < 0x014 then { s.regs with arg2 := w }
      else { s.regs with arg3 := w } }) ∧
  (∀ s : State,
    hostReadValue s 0x000 = s.regs.cmd ∧
    hostReadValue s 0x008 = s.regs.arg0 ∧ hostReadValue s 0x00C = s.regs.arg1 ∧
    hostReadValue s 0x010 = s.regs.arg2 ∧ hostReadValue s 0x014 = s.regs.arg3 ∧
    hostReadValue s 0x018 = s.regs.res0 ∧ hostReadValue s 0x01C = s.regs.res1 ∧
    hostReadValue s 0x020 = s.regs.res2 ∧ hostReadValue s 0x024 = s.regs.res3)

/-- R43: a word written to the BULK window reads back, its byte j of the word lands in BULK[4k+j], and every
other host word and every other byte of BULK keeps its value. -/
def Obligations.BulkWindowReadsBack : Prop :=
  ∀ (s : State) (a : BitVec 12) (w : Word), MemoryCanonical s →
    0x100 ≤ a.toNat → a.toNat < 0x200 →
    hostReadValue (hostAccess s (.write a w)) a = w ∧
    (∀ b : BitVec 12, b.toNat / 4 ≠ a.toNat / 4 →
      hostReadValue (hostAccess s (.write a w)) b = hostReadValue s b) ∧
    (∀ i : Byte, readByte (hostAccess s (.write a w)).bulk i =
      if i.toNat / 4 = a.toNat / 4 - 0x40 then byteOfWord w (i.toNat % 4) else readByte s.bulk i)

/-- R35, R40, R250: the bits of STATUS as the host reads them, with the codes of the FSM states, the classes
and the errors written out. -/
def Obligations.StatusWordLayout : Prop :=
  ∀ (s : State) (w : Word), w = hostReadValue s 0x004 →
    w.getLsbD 0 = s.status.busy ∧
    (∀ p ∈ ([(.idle, 0), (.computing, 1), (.writing, 2), (.committing, 3), (.failed, 4)] :
        List (FsmState × BitVec 3)), s.status.fsm = p.1 → w.extractLsb' 1 3 = p.2) ∧
    w.getLsbD 4 = s.status.initialized ∧ w.getLsbD 5 = s.status.divValid ∧
    w.getLsbD 6 = s.status.chipUndef ∧ w.getLsbD 7 = s.status.dropped ∧
    w.getLsbD 8 = decide (s.status.cls = .large) ∧ w.getLsbD 9 = s.status.fracMode ∧
    w.getLsbD 10 = s.status.abortPending ∧ w.getLsbD 11 = false ∧
    (∀ p ∈ ([(.none, 0), (.outOfRange, 1), (.noDividerSolution, 2), (.unsupportedReference, 3),
        (.transportFailure, 4), (.notInitialized, 5), (.illegalCommand, 6), (.illegalOperand, 7),
        (.fieldOverflow, 8), (.illegalState, 9), (.aborted, 10)] : List (ErrCode × BitVec 4)),
      s.status.err = p.1 → w.extractLsb' 12 4 = p.2) ∧
    w.extractLsb' 16 8 = s.status.lastOp ∧
    w.extractLsb' 24 4 = s.status.step ∧ w.extractLsb' 28 4 = 0

/-- R31, R36, R37, R42, R67: what PORTERR and every read-only view show, the lower byte or half in the less
significant bits. -/
def Obligations.ViewLayouts : Prop :=
  ∀ s : State,
    (hostReadValue s 0x028).toNat = s.regs.portErr.toNat ∧
    hostReadValue s 0x030 = s.clock.referenceHz ∧ hostReadValue s 0x034 = s.clock.requestedHz ∧
    hostReadValue s 0x038 = s.clock.actualHz ∧ hostReadValue s 0x03C = s.clock.minHz ∧
    hostReadValue s 0x040 = s.clock.maxHz ∧ hostReadValue s 0x058 = xoWord s.clock.xo ∧
    (hostReadValue s 0x044).toNat =
      s.clock.dividers.outputDivider.toNat + 2 ^ 16 * s.clock.dividers.feedbackInt.toNat ∧
    (hostReadValue s 0x048).toNat = s.clock.dividers.feedbackFrac.toNat ∧
    (hostReadValue s 0x04C).toNat + 2 ^ 32 * (hostReadValue s 0x050).toNat =
      s.clock.dividers.vcoHz.toNat ∧
    (hostReadValue s 0x054).toNat = s.clock.chargePump.toNat ∧
    (hostReadValue s 0x05C).toNat = s.clock.oeMode.toNat + 2 ^ 8 * s.clock.vsel.toNat ∧
    (∀ j : Nat, (h : j < 4) → byteOfWord (hostReadValue s 0x060) j = s.imgDiv[j]) ∧
    byteOfWord (hostReadValue s 0x064) 0 = s.imgDiv[4] ∧
    byteOfWord (hostReadValue s 0x064) 1 = s.imgDiv[5] ∧
    (hostReadValue s 0x064).toNat < 2 ^ 16 ∧
    (∀ j : Nat, (h : j < 4) → byteOfWord (hostReadValue s 0x068) j = s.imgXo[j]) ∧
    (∀ j : Nat, (h : j < 4) → byteOfWord (hostReadValue s 0x06C) j = s.imgXo[4 + j])

/-- R280: after the reset event every host register reads 0, whatever the state was. -/
def Obligations.ResetClearsEverything : Prop :=
  ∀ (s : State) (rest : List Event), mapsOk s.maps = true → s.inputs = .reset :: rest →
    ∃ t, step s = .next t ∧ (∀ a : BitVec 12, hostReadValue t a = 0) ∧
      t.status.fsm = .idle ∧ t.status.err = .none ∧ t.hidden.pending = none ∧
      t.hidden.wrote = false ∧ (∀ a : Byte, readByte t.bulk a = 0)

/-! ### The codec (40_bitfield_codec.md) -/

/-- R120: nothing fits a zero mask; a value fits a non-zero mask exactly when each of its bits, shifted to
the mask's lowest set bit and whatever its position, lies in the mask; for a contiguous mask that is the
same as `v < 2^popcount(m)`. -/
def Obligations.FitsMask : Prop :=
  (∀ v : Nat, fits v 0 = false) ∧
  ∀ (m : Byte) (v k : Nat), IsLowestBit m k →
    (fits v m = true ↔ FitsAt v m k) ∧
    (contiguous m = true → (fits v m = true ↔ v < 2 ^ popcount m))

/-- R121, R123: PACK finishes with NONE, RES0[7:0] being BYTE with the masked bits replaced by VALUE shifted
to the lowest set bit of MASK and RES0[31:8] = 0; nothing else changes. -/
def Obligations.PackResult : Prop :=
  ∀ (m b v : Byte) (k : Nat) (s : State), s.status.abortPending = false → IsLowestBit m k →
    FitsAt v.toNat m k →
    ∃ r : Word, exec (.pack m b v) s = .next { s with
        regs := { s.regs with res0 := r }
        status := { s.status with err := .none, busy := false, abortPending := false } } ∧
      ∀ i, r.getLsbD i =
        if m.getLsbD i then decide (k ≤ i) && v.getLsbD (i - k) else b.getLsbD i

/-- R122, R124: UNPACK finishes with NONE, RES0 being the masked bits of BYTE moved down to bit 0; nothing
else changes. -/
def Obligations.UnpackResult : Prop :=
  ∀ (m b : Byte) (k : Nat) (s : State), s.status.abortPending = false → IsLowestBit m k →
    ∃ r : Word, exec (.unpack m b) s = .next { s with
        regs := { s.regs with res0 := r }
        status := { s.status with err := .none, busy := false, abortPending := false } } ∧
      ∀ i, r.getLsbD i = (m.getLsbD (i + k) && b.getLsbD (i + k))

/-- R121 to R124: a zero mask ends PACK and UNPACK with ILLEGAL_OPERAND; a VALUE that does not fit a
non-zero MASK ends PACK with FIELD_OVERFLOW; RES0 keeps its value. -/
def Obligations.CodecRefusals : Prop :=
  ∀ s : State, s.status.abortPending = false →
    (∀ b v : Byte, exec (.pack 0 b v) s = .next { s with
      status := { s.status with err := .illegalOperand, busy := false, abortPending := false } }) ∧
    (∀ b : Byte, exec (.unpack 0 b) s = .next { s with
      status := { s.status with err := .illegalOperand, busy := false, abortPending := false } }) ∧
    (∀ (m b v : Byte) (k : Nat), IsLowestBit m k → ¬ FitsAt v.toNat m k →
      exec (.pack m b v) s = .next { s with
        status := { s.status with err := .fieldOverflow, busy := false, abortPending := false } })

/-- R125: the two round trips of the codec. -/
def Obligations.CodecRoundTrips : Prop :=
  (∀ (e m : Byte) (v : Nat), m ≠ 0 → fits v m = true →
    ∃ r, pack e v m = .ok r ∧ unpack r m = .ok v) ∧
  (∀ b m : Byte, m ≠ 0 → ∃ v, unpack b m = .ok v ∧ pack b v m = .ok b)

/-- R126: on a well-formed field, PutField of a value below 2^width answers an image that holds it and
leaves every bit outside the field alone, and a wider value is FIELD_OVERFLOW. -/
def Obligations.PutFieldWritesOnlyItsField : Prop :=
  ∀ (n : Nat) (img : Vector Byte n) (field : List Piece) (v : Nat),
    masksOk field = true → piecesDisjoint field = true → offsetsOk n field = true →
    (v < 2 ^ width field →
      ∃ out, putField img field v = .ok out ∧ FieldsWritten img out [(field, v)]) ∧
    (2 ^ width field ≤ v → putField img field v = .error .fieldOverflow)

/-- R133, R134: under every well-formed divider map, encoding a DividerSet and a pump code never overflows,
decodes back to the four register fields, and keeps the bits that belong to no field. -/
def Obligations.DividerImageRoundTrip : Prop :=
  ∀ (m : DivMap) (img : Vector Byte 6) (r : DividerSet) (cp : BitVec 3), divMapOk m = true →
    ∃ out, encodeDiv m img r cp = .ok out ∧
      decodeDiv m out =
        (r.outputDivider.toNat, r.feedbackInt.toNat, r.feedbackFrac.toNat, cp.toNat) ∧
      FieldsWritten img out (divFields m r cp)

/-! ### The divider solver (41_divider_solver.md) -/

/-- R148, R150: every DividerSet that Solve returns is within THW's bounds, and its vco_hz is exactly
req * output_divider. -/
def Obligations.SolveWithinBounds : Prop :=
  ∀ (req ref : Nat) (dd : Bool) (r : DividerSet) (mode : SolveMode),
    solveDividers req ref dd = some (r, mode) →
    4 ≤ r.outputDivider.toNat ∧ r.outputDivider.toNat ≤ 511 ∧
      41 ≤ r.feedbackInt.toNat ∧ r.feedbackInt.toNat ≤ 216 ∧
      6860000000 ≤ r.vcoHz.toNat ∧ r.vcoHz.toNat ≤ 8650000000 ∧
      r.vcoHz.toNat = req * r.outputDivider.toNat ∧
      (r.feedbackFrac ≠ 0 → mode = .fractional)

/-- R141 to R144: an INTEGER result is the first exact one: its divider lies from the initial guess up to
but not at DIVO_MAX, feedback_int * pfd is exactly the VCO frequency, feedback_frac is 0, and no smaller
divider from the guess on is exact. -/
def Obligations.SolveIntegerIsFirstExact : Prop :=
  ∀ (req ref : Nat) (dd : Bool) (r : DividerSet) (pfd : Nat), pfd = ref * (if dd then 1 else 2) →
    solveDividers req ref dd = some (r, .integer) →
    1 + 6860000000 / req ≤ r.outputDivider.toNat ∧ r.outputDivider.toNat < 511 ∧
      r.feedbackInt.toNat * pfd = req * r.outputDivider.toNat ∧ r.feedbackFrac = 0 ∧
      ∀ od, 1 + 6860000000 / req ≤ od → od < r.outputDivider.toNat → ¬ pfd ∣ req * od

/-- R146, R147, R154: a FRACTIONAL result is computed at the initial guess, and its rounding reduces to one
condition: when 2*rem >= pfd both frac and n are one more than truncated. -/
def Obligations.SolveFractionalRounding : Prop :=
  ∀ (req ref : Nat) (dd : Bool) (r : DividerSet) (pfd od vco : Nat),
    pfd = ref * (if dd then 1 else 2) → od = 1 + 6860000000 / req → vco = req * od →
    solveDividers req ref dd = some (r, .fractional) →
    r.outputDivider.toNat = od ∧ r.vcoHz.toNat = vco ∧
      (2 * (vco % pfd) ≥ pfd → r.feedbackInt.toNat = vco / pfd + 1 ∧
        r.feedbackFrac.toNat = (vco % pfd) * 2 ^ 24 / pfd + 1) ∧
      (2 * (vco % pfd) < pfd → r.feedbackInt.toNat = vco / pfd ∧
        r.feedbackFrac.toNat = (vco % pfd) * 2 ^ 24 / pfd)

/-- R143, R144: Solve finds an exact solution: when od is the first divider from the guess on (below
DIVO_MAX) whose VCO frequency is a multiple of pfd, the guess does not stall, and od's VCO frequency and
quotient are within the bounds, the result is that integer solution. -/
def Obligations.SolveFindsFirstExact : Prop :=
  ∀ (req ref : Nat) (dd : Bool) (pfd od : Nat), pfd = ref * (if dd then 1 else 2) → 0 < req →
    0 < pfd → 4 ≤ od → 1 + 6860000000 / req ≤ od → od < 511 → pfd ∣ req * od →
    (∀ o, 1 + 6860000000 / req ≤ o → o < od → ¬ pfd ∣ req * o) →
    41 * pfd ≤ req * (1 + 6860000000 / req) → req * od ≤ 8650000000 → req * od < 217 * pfd →
    solveDividers req ref dd =
      some ({ outputDivider := BitVec.ofNat 9 od, feedbackInt := BitVec.ofNat 9 (req * od / pfd),
              feedbackFrac := 0, vcoHz := BitVec.ofNat 64 (req * od) }, .integer)

/-- R145, R153: with the doubler enabled, every request of the envelope stalls from a reference of
104_573_171 Hz up, and a stall is NO_DIVIDER_SOLUTION. -/
def Obligations.SolveStallsOnHighReference : Prop :=
  ∀ req ref : Nat, 16000000 ≤ req → req ≤ 2100000000 → 104573171 ≤ ref →
    solveDividers req ref false = none

/-- R152, R95: the SOLVE command: ILLEGAL_OPERAND for a zero operand or ARG2[31:1] != 0,
NO_DIVIDER_SOLUTION when Solve finds none, and otherwise the four results; nothing else changes. -/
def Obligations.SolveCommand : Prop :=
  ∀ (s : State) (q : Latch), q = s.hidden.latch → s.status.abortPending = false →
    ((2 ≤ q.a2.toNat ∨ q.a0 = 0 ∨ q.a1 = 0) → exec .solve s = .next { s with
      status := { s.status with err := .illegalOperand, busy := false, abortPending := false } }) ∧
    (q.a2.toNat < 2 → q.a0 ≠ 0 → q.a1 ≠ 0 →
      (solveDividers q.a0.toNat q.a1.toNat (decide (q.a2 = 1)) = none →
        exec .solve s = .next { s with
          status := { s.status with
            err := .noDividerSolution, busy := false, abortPending := false } }) ∧
      (∀ r mode, solveDividers q.a0.toNat q.a1.toNat (decide (q.a2 = 1)) = some (r, mode) →
        ∃ w0 w1 w2 w3 : Word, exec .solve s = .next { s with
            regs := { s.regs with res0 := w0, res1 := w1, res2 := w2, res3 := w3 }
            status := { s.status with err := .none, busy := false, abortPending := false } } ∧
          w0.toNat = r.outputDivider.toNat + 2 ^ 16 * r.feedbackInt.toNat ∧
          w1.toNat = r.feedbackFrac.toNat + (if mode = .fractional then 2 ^ 31 else 0) ∧
          w2.toNat + 2 ^ 32 * w3.toNat = r.vcoHz.toNat))

/-! ### Charge pump, XO trim, classification -/

/-- R170, R171, R172: SELECT_CP of vco = {ARG1, ARG0} gives the code of vco's range, each breakpoint
belonging to the range above it. -/
def Obligations.SelectCpResult : Prop :=
  ∀ (s : State) (vco : Nat), s.status.abortPending = false →
    vco = s.hidden.latch.a0.toNat + 2 ^ 32 * s.hidden.latch.a1.toNat →
    ∃ code : Word, exec .selectCp s = .next { s with
        regs := { s.regs with res0 := code }
        status := { s.status with err := .none, busy := false, abortPending := false } } ∧
      (vco < 7000000000 → code = 5) ∧
      (7000000000 ≤ vco → vco < 7400000000 → code = 4) ∧
      (7400000000 ≤ vco → vco < 7800000000 → code = 3) ∧
      (7800000000 ≤ vco → code = 2)

/-- R180 to R182: XO_LOOKUP of a band-1 reference gives 0x023C0122, of a band-2 or band-3 reference the XO
word of that band's tuple, whatever it is, and of any other reference UNSUPPORTED_REFERENCE. That bands 2
and 3 run is the model's choice (log 4): the spec leaves those tuples open. -/
def Obligations.XoLookupResult : Prop :=
  ∀ (s : State) (ref : Nat), s.status.abortPending = false → ref = s.hidden.latch.a0.toNat →
    (∀ w : Word,
      ((40000000 ≤ ref ∧ ref ≤ 80000000 ∧ w = 0x023C0122) ∨
       (100000000 ≤ ref ∧ ref < 140000000 ∧ w = xoWord Config.xoBand2Tuple) ∨
       (140000000 ≤ ref ∧ ref ≤ 166000000 ∧ w = xoWord Config.xoBand3Tuple)) →
      exec .xoLookup s = .next { s with
        regs := { s.regs with res0 := w }
        status := { s.status with err := .none, busy := false, abortPending := false } }) ∧
    ((ref < 40000000 ∨ (80000000 < ref ∧ ref < 100000000) ∨ 166000000 < ref) →
      exec .xoLookup s = .next { s with
        status := { s.status with
          err := .unsupportedReference, busy := false, abortPending := false } })

/-- R183: an XO word built from a tuple reads back as the tuple and has its reserved bits 0; the word of
the tuple a word reads as is that word with its reserved bits cleared; and where each field stands. The
fields are held at the widths of their containers (log 5). -/
def Obligations.XoWordRoundTrip : Prop :=
  (∀ t : XoSettings, xoTuple (xoWord t) = t ∧ (xoWord t).extractLsb' 2 2 = 0) ∧
  (∀ w : Word, xoWord (xoTuple w) = w &&& 0xFFFFFFF3) ∧
  (∀ t : XoSettings, (xoWord t).toNat =
    t.doublerDisabled.toNat + 2 * t.overtoneDisabled.toNat + 2 ^ 4 * t.amplifierGm.toNat +
      2 ^ 8 * t.ampSlice.toNat + 2 ^ 12 * t.overtoneResistor.toNat + 2 ^ 16 * t.capX1.toNat +
      2 ^ 24 * t.capX2.toNat)

/-- R205, R218: CLASSIFY gives the relative change, saturated, and the class of the unsaturated change:
Small exactly when the change is strictly below 5 parts in 10000 of the old rate; from an old rate of 0 it
is 0xFFFFFFFF and Large. -/
def Obligations.ClassifyResult : Prop :=
  ∀ (s : State) (new act diff : Nat), s.status.abortPending = false →
    new = s.hidden.latch.a0.toNat → act = s.hidden.latch.a1.toNat → diff + min new act = max new act →
    ∃ rel cls : Word, exec .classify s = .next { s with
        regs := { s.regs with res0 := rel, res1 := cls }
        status := { s.status with err := .none, busy := false, abortPending := false } } ∧
      (act = 0 → rel.toNat = 2 ^ 32 - 1 ∧ cls = 1) ∧
      (0 < act → rel.toNat = min (diff * 10000 / act) (2 ^ 32 - 1) ∧
        (diff * 10000 < 5 * act → cls = 0) ∧ (5 * act ≤ diff * 10000 → cls = 1))

/-- R215, R217, R223: GET_RATE gives actual_hz after an INIT and NOT_INITIALIZED before one; ROUND_RATE
gives its operand; an accepted ABORT finishes NONE. Nothing else changes. -/
def Obligations.RateQueriesAndAbortComplete : Prop :=
  ∀ s : State, s.status.abortPending = false →
    (s.status.initialized = true → exec .getRate s = .next { s with
      regs := { s.regs with res0 := s.clock.actualHz }
      status := { s.status with err := .none, busy := false, abortPending := false } }) ∧
    (s.status.initialized = false → exec .getRate s = .next { s with
      status := { s.status with err := .notInitialized, busy := false, abortPending := false } }) ∧
    exec .roundRate s = .next { s with
      regs := { s.regs with res0 := s.hidden.latch.a0 }
      status := { s.status with err := .none, busy := false, abortPending := false } } ∧
    exec .abort s = .next { s with
      status := { s.status with err := .none, busy := false, abortPending := false } }

/-! ### INIT (44_sequencer.md R203) -/

/-- R203, R253: INIT's checks in their order, and the read of the XO block once they pass. A failed check
changes nothing but ERR and BUSY. -/
def Obligations.InitFirstStep : Prop :=
  ∀ (s : State) (q : Latch) (fails : ErrCode → State), q = s.hidden.latch →
    s.status.abortPending = false → s.hidden.pending = none →
    (∀ e, fails e = { s with
      status := { s.status with err := e, busy := false, abortPending := false } }) →
    (s.status.initialized = true → exec .init s = .next (fails .illegalState)) ∧
    (s.status.initialized = false →
      (¬ (16000000 ≤ q.a1.toNat ∧ q.a1.toNat ≤ q.a2.toNat ∧ q.a2.toNat ≤ 2100000000) →
        exec .init s = .next (fails .illegalOperand)) ∧
      (16000000 ≤ q.a1.toNat → q.a1.toNat ≤ q.a2.toNat → q.a2.toNat ≤ 2100000000 →
        (xoTrimOf q.a0.toNat = none → exec .init s = .next (fails .unsupportedReference)) ∧
        (∀ t, xoTrimOf q.a0.toNat = some t →
          (q.a3 ≠ 0 → (q.a3.toNat < q.a1.toNat ∨ q.a2.toNat < q.a3.toNat) →
            exec .init s = .next (fails .outOfRange)) ∧
          ((q.a3 = 0 ∨ (q.a1.toNat ≤ q.a3.toNat ∧ q.a3.toNat ≤ q.a2.toNat)) →
            (trimFits s.maps.xo t = false → exec .init s = .next (fails .fieldOverflow)) ∧
            (trimFits s.maps.xo t = true → exec .init s = .next { s with
              status := { s.status with fsm := .computing }
              hidden := { s.hidden with pending := some (.read 0x50 8) } })))))

/-- R203, R221, R132: when its read is answered, INIT encodes the trim of its reference into the block as
read, every other bit as read, takes the user fields from it, and issues the eight-entry write. -/
def Obligations.InitWritesTrim : Prop :=
  ∀ (s : State) (a : Byte) (n : Nat) (d : Vector Byte 8) (rest : List Event) (t : XoSettings),
    xoMapOk s.maps.xo = true → s.status.abortPending = false →
    s.hidden.pending = some (.read a n) → s.inputs = .port (.ok d) :: rest →
    xoTrimOf s.hidden.latch.a0.toNat = some t → trimFits s.maps.xo t = true →
    ∃ img : Vector Byte 8, FieldsWritten d img (trimFields s.maps.xo t) ∧
      exec .init s = .next { s with
        inputs := rest
        imgXo := img
        status := { s.status with fsm := .writing }
        hidden := { s.hidden with
          wrote := true
          oeRead := BitVec.ofNat 8 (getField d s.maps.xo.oeMode)
          vselRead := BitVec.ofNat 8 (getField d s.maps.xo.vsel)
          pending := some (.write
            [(0x50, img[0]), (0x51, img[1]), (0x52, img[2]), (0x53, img[3]), (0x54, img[4]),
             (0x55, img[5]), (0x56, img[6]), (0x57, img[7])]) } }

/-- R203, R23 to R25: INIT completes when its write returns Ok: ClockState from its operands, its reference's
trim and the user fields it read, INIT set, DIV_VALID and FRACMODE clear, STEP counted, Idle and NONE. Where
the user fields stand between the read and the write is the model's deduction (log 8). -/
def Obligations.InitCompletes : Prop :=
  ∀ (s : State) (es : List (Byte × Byte)) (d : Vector Byte 8) (rest : List Event) (t : XoSettings),
    s.hidden.pending = some (.write es) → s.inputs = .port (.ok d) :: rest →
    xoTrimOf s.hidden.latch.a0.toNat = some t →
    exec .init s = .next { s with
      inputs := rest
      hidden := { s.hidden with pending := none }
      clock := { s.clock with
        referenceHz := s.hidden.latch.a0, minHz := s.hidden.latch.a1, maxHz := s.hidden.latch.a2,
        requestedHz := s.hidden.latch.a3, actualHz := s.hidden.latch.a3, xo := t,
        oeMode := s.hidden.oeRead, vsel := s.hidden.vselRead }
      status := { s.status with
        initialized := true, divValid := false, fracMode := false, fsm := .idle, err := .none,
        busy := false, abortPending := false,
        step := if s.status.step = 15 then 15 else s.status.step + 1 } }

/-! ### SET_RATE (R204 to R214) -/

/-- R206 to R209, R214: SET_RATE's first step: NOT_INITIALIZED and OUT_OF_RANGE change nothing but ERR and
BUSY; past them the class is recorded; NO_DIVIDER_SOLUTION leaves Failed; a solution is latched with its
pump code and the divider block is read. -/
def Obligations.SetRateFirstStep : Prop :=
  ∀ (s : State) (new : Nat) (cls : RateClass), new = s.hidden.latch.a0.toNat →
    s.status.abortPending = false → s.hidden.pending = none →
    cls = (classifyChange new s.clock.actualHz.toNat).2 →
    (s.status.initialized = false → exec .setRate s = .next { s with
      status := { s.status with err := .notInitialized, busy := false, abortPending := false } }) ∧
    (s.status.initialized = true →
      ((new < s.clock.minHz.toNat ∨ s.clock.maxHz.toNat < new) → exec .setRate s = .next { s with
        status := { s.status with err := .outOfRange, busy := false, abortPending := false } }) ∧
      (s.clock.minHz.toNat ≤ new → new ≤ s.clock.maxHz.toNat →
        (solveDividers new s.clock.referenceHz.toNat s.clock.xo.doublerDisabled = none →
          exec .setRate s = .next { s with
            status := { s.status with
              cls := cls, fsm := .failed, err := .noDividerSolution, busy := false,
              abortPending := false } }) ∧
        (∀ r mode,
          solveDividers new s.clock.referenceHz.toNat s.clock.xo.doublerDisabled = some (r, mode) →
          exec .setRate s = .next { s with
            status := { s.status with cls := cls, fsm := .computing }
            hidden := { s.hidden with
              solution := r, solutionMode := mode,
              cpCode := selectChargePump r.vcoHz.toNat, pending := some (.read 0x10 6) } })))

/-- R210, R134: when its read is answered, SET_RATE encodes all four fields into the block as read, every
other bit as read, and only then issues the six-entry write; it never overflows. -/
def Obligations.SetRateWritesImage : Prop :=
  ∀ (s : State) (a : Byte) (n : Nat) (d : Vector Byte 8) (rest : List Event),
    divMapOk s.maps.div = true → s.status.abortPending = false →
    s.hidden.pending = some (.read a n) → s.inputs = .port (.ok d) :: rest →
    ∃ img : Vector Byte 6,
      FieldsWritten (#v[d[0], d[1], d[2], d[3], d[4], d[5]] : Vector Byte 6) img
        (divFields s.maps.div s.hidden.solution s.hidden.cpCode) ∧
      exec .setRate s = .next { s with
        inputs := rest
        imgDiv := img
        status := { s.status with fsm := .writing }
        hidden := { s.hidden with
          wrote := true
          pending := some (.write
            [(0x10, img[0]), (0x11, img[1]), (0x12, img[2]), (0x13, img[3]), (0x14, img[4]),
             (0x15, img[5])]) } }

/-- R204, R211, R212: the one-entry writes of SET_RATE in order. When a write returns Ok and STEP was k, for
k = 0 to 6, the next write is the k-th of 0x00, 0x20, 0x00, 0x01, 0x00 to 0x60, then T and 0x00 to 0x62,
with T = 0x01 for Large and 0x02 for Small; STATE is Committing. That STEP says which write comes next is
the model's deduction (log 7). -/
def Obligations.SetRateCommitSequence : Prop :=
  ∀ (s : State) (es : List (Byte × Byte)) (d : Vector Byte 8) (rest : List Event) (e : Byte × Byte),
    s.hidden.pending = some (.write es) → s.inputs = .port (.ok d) :: rest →
    ((s.status.step = 0 ∧ e = (0x60, 0x00)) ∨ (s.status.step = 1 ∧ e = (0x60, 0x20)) ∨
     (s.status.step = 2 ∧ e = (0x60, 0x00)) ∨ (s.status.step = 3 ∧ e = (0x60, 0x01)) ∨
     (s.status.step = 4 ∧ e = (0x60, 0x00)) ∨
     (s.status.step = 5 ∧ s.status.cls = .large ∧ e = (0x62, 0x01)) ∨
     (s.status.step = 5 ∧ s.status.cls = .small ∧ e = (0x62, 0x02)) ∨
     (s.status.step = 6 ∧ e = (0x62, 0x00))) →
    exec .setRate s = .next { s with
      inputs := rest
      status := { s.status with fsm := .committing, step := s.status.step + 1 }
      hidden := { s.hidden with wrote := true, pending := some (.write [e]) } }

/-- R213: SET_RATE commits when the last trigger write (number 8) returns Ok: both rates are the request,
the solution and the pump code are stored, DIV_VALID is set, FRACMODE is the mode, CHIP_UNDEF is clear. -/
def Obligations.SetRateCompletes : Prop :=
  ∀ (s : State) (es : List (Byte × Byte)) (d : Vector Byte 8) (rest : List Event),
    s.hidden.pending = some (.write es) → s.inputs = .port (.ok d) :: rest → s.status.step = 7 →
    exec .setRate s = .next { s with
      inputs := rest
      hidden := { s.hidden with pending := none }
      clock := { s.clock with
        requestedHz := s.hidden.latch.a0, actualHz := s.hidden.latch.a0,
        dividers := s.hidden.solution, chargePump := s.hidden.cpCode }
      status := { s.status with
        divValid := true, fracMode := decide (s.hidden.solutionMode = .fractional),
        chipUndef := false, step := 8, fsm := .idle, err := .none, busy := false,
        abortPending := false } }

/-- R204, R206: from its first step, with every port answer Ok, an accepted SET_RATE that passes its checks
and has a solution commits after ten steps: the first step, the read and the eight writes (the moves listed as
log 1 says). -/
def Obligations.SetRateRunsToCommit : Prop :=
  ∀ (s : State) (d0 d1 d2 d3 d4 d5 d6 d7 d8 : Vector Byte 8) (rest : List Event) (r : DividerSet)
    (mode : SolveMode),
    mapsOk s.maps = true → Running s .setRate → s.hidden.pending = none →
    s.status.abortPending = false → s.status.step = 0 → s.status.initialized = true →
    s.clock.minHz.toNat ≤ s.hidden.latch.a0.toNat → s.hidden.latch.a0.toNat ≤ s.clock.maxHz.toNat →
    solveDividers s.hidden.latch.a0.toNat s.clock.referenceHz.toNat s.clock.xo.doublerDisabled =
      some (r, mode) →
    s.inputs = .ctrl :: .port (.ok d0) :: .port (.ok d1) :: .port (.ok d2) :: .port (.ok d3) ::
      .port (.ok d4) :: .port (.ok d5) :: .port (.ok d6) :: .port (.ok d7) :: .port (.ok d8) :: rest →
    ∃ t, Host.Core.run Sys2Proof.core 10 s = .next t ∧ t.inputs = rest ∧
      t.clock = { s.clock with
        requestedHz := s.hidden.latch.a0, actualHz := s.hidden.latch.a0, dividers := r,
        chargePump := selectChargePump r.vcoHz.toNat } ∧
      t.status = { s.status with
        busy := false, fsm := .idle, divValid := true, chipUndef := false,
        cls := (classifyChange s.hidden.latch.a0.toNat s.clock.actualHz.toNat).2,
        fracMode := decide (mode = .fractional), abortPending := false, err := .none, step := 8 } ∧
      t.regs = s.regs ∧ t.hidden.pending = none ∧ t.imgXo = s.imgXo ∧ t.bulk = s.bulk

/-- R219, R204, R211, R212: two SET_RATE commands of one rate issue identical writes. With one reference and one doubler
setting, two that reach their read latch the same solution and pump code, and one whose rate is already the
actual rate is Small; with one solution and one pump code, and reads that agree in the bits of no field, both
issue the same image write; and at the same STEP with the same class, both issue the same next write. That
STEP says which write comes next is the model's deduction (log 7). -/
def Obligations.SetRateIdempotent : Prop :=
  (∀ s t s' t' : State, s.hidden.latch.a0 = t.hidden.latch.a0 →
    s.clock.referenceHz = t.clock.referenceHz →
    s.clock.xo.doublerDisabled = t.clock.xo.doublerDisabled →
    s.hidden.pending = none → t.hidden.pending = none →
    exec .setRate s = .next s' → exec .setRate t = .next t' →
    s'.hidden.pending.isSome = true → t'.hidden.pending.isSome = true →
    s'.hidden.solution = t'.hidden.solution ∧ s'.hidden.cpCode = t'.hidden.cpCode ∧
      (t.clock.actualHz = t.hidden.latch.a0 → t'.status.cls = .small)) ∧
  (∀ (s t : State) (a a' : Byte) (n n' : Nat) (d e : Vector Byte 8) (rest rest' : List Event),
    divMapOk s.maps.div = true → s.maps.div = t.maps.div →
    s.hidden.solution = t.hidden.solution → s.hidden.cpCode = t.hidden.cpCode →
    s.status.abortPending = false → t.status.abortPending = false →
    s.hidden.pending = some (.read a n) → t.hidden.pending = some (.read a' n') →
    s.inputs = .port (.ok d) :: rest → t.inputs = .port (.ok e) :: rest' →
    (∀ (i j : Nat) (h : i < 6), j < 8 →
      (∀ p ∈ divPieces s.maps.div, p.off = i → p.mask.getLsbD j = false) →
      d[i].getLsbD j = e[i].getLsbD j) →
    ∃ s' t' w, exec .setRate s = .next s' ∧ exec .setRate t = .next t' ∧
      s'.hidden.pending = some (.write w) ∧ t'.hidden.pending = some (.write w)) ∧
  (∀ (s t : State) (es es' : List (Byte × Byte)) (d e : Vector Byte 8) (rest rest' : List Event),
    s.status.step = t.status.step → s.status.cls = t.status.cls →
    s.hidden.pending = some (.write es) → t.hidden.pending = some (.write es') →
    s.inputs = .port (.ok d) :: rest → t.inputs = .port (.ok e) :: rest' →
    ∃ s' t', exec .setRate s = .next s' ∧ exec .setRate t = .next t' ∧
      s'.hidden.pending = t'.hidden.pending)

/-! ### BULK_LOAD and the XO commands -/

/-- R216: BULK_LOAD is ILLEGAL_STATE after an INIT; before one it writes the 256 bytes of its snapshot in
ascending address order in one transaction, and completes when that returns Ok. -/
def Obligations.BulkLoadRuns : Prop :=
  ∀ s : State,
    (s.status.abortPending = false → s.hidden.pending = none →
      (s.status.initialized = true → exec .bulkLoad s = .next { s with
        status := { s.status with err := .illegalState, busy := false, abortPending := false } }) ∧
      (s.status.initialized = false → ∃ es : List (Byte × Byte),
        es.length = 256 ∧
        (∀ i : Byte, es[i.toNat]? = some (i, readByte s.hidden.snap i)) ∧
        exec .bulkLoad s = .next { s with
          status := { s.status with fsm := .writing }
          hidden := { s.hidden with wrote := true, pending := some (.write es) } })) ∧
    (∀ es d rest, s.hidden.pending = some (.write es) → s.inputs = .port (.ok d) :: rest →
      exec .bulkLoad s = .next { s with
        inputs := rest
        hidden := { s.hidden with pending := none }
        status := { s.status with
          fsm := .idle, err := .none, busy := false, abortPending := false,
          step := if s.status.step = 15 then 15 else s.status.step + 1 } })

/-- R220, R222: the checks of SET_XO_USER and SET_XO_TRIM in their order, and the read of the XO block once
they pass. -/
def Obligations.XoCommandFirstSteps : Prop :=
  ∀ (s : State) (fails : ErrCode → State) (reads : State),
    s.status.abortPending = false → s.hidden.pending = none →
    (∀ e, fails e = { s with
      status := { s.status with err := e, busy := false, abortPending := false } }) →
    reads = { s with
      status := { s.status with fsm := .computing }
      hidden := { s.hidden with pending := some (.read 0x50 8) } } →
    (s.status.initialized = false →
      exec .setXoTrim s = .next (fails .notInitialized) ∧
      ∀ oe vs, exec (.setXoUser oe vs) s = .next (fails .notInitialized)) ∧
    (s.status.initialized = true →
      (∀ oe vs : Byte,
        ((2 ^ width s.maps.xo.oeMode ≤ oe.toNat ∨ 2 ^ width s.maps.xo.vsel ≤ vs.toNat) →
          exec (.setXoUser oe vs) s = .next (fails .fieldOverflow)) ∧
        (oe.toNat < 2 ^ width s.maps.xo.oeMode → vs.toNat < 2 ^ width s.maps.xo.vsel →
          exec (.setXoUser oe vs) s = .next reads)) ∧
      (s.hidden.latch.a0.extractLsb' 2 2 ≠ 0 →
        exec .setXoTrim s = .next (fails .illegalOperand)) ∧
      (s.hidden.latch.a0.extractLsb' 2 2 = 0 →
        ((∃ f ∈ trimFields s.maps.xo (xoTuple s.hidden.latch.a0), 2 ^ width f.1 ≤ f.2) →
          exec .setXoTrim s = .next (fails .fieldOverflow)) ∧
        ((∀ f ∈ trimFields s.maps.xo (xoTuple s.hidden.latch.a0), f.2 < 2 ^ width f.1) →
          exec .setXoTrim s = .next reads)))

/-- R220 to R222: when its read is answered, each XO command changes only the fields it names in the block
as read, every other bit as read, and issues the eight-entry write. -/
def Obligations.XoCommandsWriteImage : Prop :=
  ∀ (s : State) (a : Byte) (n : Nat) (d : Vector Byte 8) (rest : List Event)
    (written : Vector Byte 8 → State),
    xoMapOk s.maps.xo = true → s.status.abortPending = false →
    s.hidden.pending = some (.read a n) → s.inputs = .port (.ok d) :: rest →
    (∀ img, written img = { s with
      inputs := rest
      imgXo := img
      status := { s.status with fsm := .writing }
      hidden := { s.hidden with
        wrote := true
        pending := some (.write
          [(0x50, img[0]), (0x51, img[1]), (0x52, img[2]), (0x53, img[3]), (0x54, img[4]),
           (0x55, img[5]), (0x56, img[6]), (0x57, img[7])]) } }) →
    (∀ oe vs : Byte, oe.toNat < 2 ^ width s.maps.xo.oeMode → vs.toNat < 2 ^ width s.maps.xo.vsel →
      ∃ img, FieldsWritten d img
          [(s.maps.xo.oeMode, oe.toNat), (s.maps.xo.vsel, vs.toNat)] ∧
        exec (.setXoUser oe vs) s = .next (written img)) ∧
    (trimFits s.maps.xo (xoTuple s.hidden.latch.a0) = true →
      ∃ img, FieldsWritten d img (trimFields s.maps.xo (xoTuple s.hidden.latch.a0)) ∧
        exec .setXoTrim s = .next (written img))

/-- R220, R222: each XO command completes when its write returns Ok: SET_XO_USER stores its two values;
SET_XO_TRIM stores its tuple and clears DIV_VALID exactly when doubler_disabled changes. -/
def Obligations.XoCommandsComplete : Prop :=
  ∀ (s : State) (es : List (Byte × Byte)) (d : Vector Byte 8) (rest : List Event) (done : Status),
    s.hidden.pending = some (.write es) → s.inputs = .port (.ok d) :: rest →
    done = { s.status with
      fsm := .idle, err := .none, busy := false, abortPending := false,
      step := if s.status.step = 15 then 15 else s.status.step + 1 } →
    (∀ oe vs : Byte, exec (.setXoUser oe vs) s = .next { s with
      inputs := rest
      hidden := { s.hidden with pending := none }
      clock := { s.clock with oeMode := oe, vsel := vs }
      status := done }) ∧
    exec .setXoTrim s = .next { s with
      inputs := rest
      hidden := { s.hidden with pending := none }
      clock := { s.clock with xo := xoTuple s.hidden.latch.a0 }
      status := { done with
        divValid := s.status.divValid &&
          s.hidden.latch.a0.getLsbD 0 == s.clock.xo.doublerDisabled } }

/-! ### Frames -/

/-- What GET_RATE, ROUND_RATE, ABORT, PACK, UNPACK, SOLVE, SELECT_CP, XO_LOOKUP and CLASSIFY leave
unchanged: everything but the RES registers each one's rule lists and STATUS.ERR, BUSY and ABORTP; every
byte of BULK; no transaction is issued. -/
def Obligations.PureCommandFrame : Prop :=
  ∀ (i : Instr) (s t : State), ¬ PortCommand i → exec i s = .next t →
    t.clock = s.clock ∧ t.imgDiv = s.imgDiv ∧ t.imgXo = s.imgXo ∧ t.hidden = s.hidden ∧
    t.maps = s.maps ∧ t.inputs = s.inputs ∧ t.readData = s.readData ∧
    (∀ a, readByte t.bulk a = readByte s.bulk a) ∧
    t.status = { s.status with
      err := t.status.err, busy := t.status.busy, abortPending := t.status.abortPending } ∧
    t.regs = { s.regs with
      res0 := t.regs.res0, res1 := t.regs.res1, res2 := t.regs.res2, res3 := t.regs.res3 } ∧
    (i ≠ .solve → t.regs.res2 = s.regs.res2 ∧ t.regs.res3 = s.regs.res3) ∧
    (i ≠ .solve → i ≠ .classify → t.regs.res1 = s.regs.res1) ∧
    (i = .abort → t.regs.res0 = s.regs.res0)

/-- What the port commands leave unchanged: every host register but PORTERR, every byte of BULK, the command
latch and the BULK snapshot, the image they do not load, DROPPED, LASTOP, and each part of ClockState and
of STATUS that their own rules do not write; and what one that fails leaves unchanged (R203, R214): all of
ClockState, INIT, DIV_VALID and FRACMODE. -/
def Obligations.PortCommandFrame : Prop :=
  ∀ (i : Instr) (s t : State), PortCommand i → exec i s = .next t →
    t.regs = { s.regs with portErr := t.regs.portErr } ∧ t.readData = s.readData ∧
    t.maps = s.maps ∧ (∀ a, readByte t.bulk a = readByte s.bulk a) ∧
    t.hidden.latch = s.hidden.latch ∧ t.hidden.snap = s.hidden.snap ∧
    t.status.dropped = s.status.dropped ∧ t.status.lastOp = s.status.lastOp ∧
    (i ≠ .setRate → t.imgDiv = s.imgDiv ∧ t.status.cls = s.status.cls ∧
      t.clock.dividers = s.clock.dividers ∧ t.clock.chargePump = s.clock.chargePump ∧
      t.hidden.solution = s.hidden.solution) ∧
    ((i = .setRate ∨ i = .bulkLoad) → t.imgXo = s.imgXo ∧ t.clock.xo = s.clock.xo ∧
      t.clock.oeMode = s.clock.oeMode ∧ t.clock.vsel = s.clock.vsel) ∧
    (i ≠ .init → t.status.initialized = s.status.initialized ∧
      t.clock.referenceHz = s.clock.referenceHz ∧ t.clock.minHz = s.clock.minHz ∧
      t.clock.maxHz = s.clock.maxHz) ∧
    (i ≠ .init → i ≠ .setRate → t.clock.requestedHz = s.clock.requestedHz ∧
      t.clock.actualHz = s.clock.actualHz ∧ t.status.fracMode = s.status.fracMode) ∧
    (i = .bulkLoad → t.clock = s.clock ∧ t.status.divValid = s.status.divValid) ∧
    (∀ oe vs, i = .setXoUser oe vs → t.clock.xo = s.clock.xo ∧
      t.status.divValid = s.status.divValid) ∧
    (i = .setXoTrim → t.clock.oeMode = s.clock.oeMode ∧ t.clock.vsel = s.clock.vsel) ∧
    (t.status.busy = false → t.status.err ≠ .none →
      t.clock = s.clock ∧ t.status.initialized = s.status.initialized ∧
        t.status.divValid = s.status.divValid ∧ t.status.fracMode = s.status.fracMode)

/-! ### The whole machine -/

/-- R280: the invariant holds right after reset. That the command latch then holds zeros, so that CMD and LASTOP
are those of the latched word, is the model's choice (log 6): R280 says only that no command is latched. -/
def Obligations.ResetMeetsInvariant : Prop := MachineInv State.reset

/-- R43: every step keeps the 256-byte buffers in canonical form. The form is the model's (log 16), and that
the snapshot is all 0 after a reset is its choice (log 6). -/
def Obligations.StepKeepsMemoryCanonical : Prop :=
  ∀ s t : State, MemoryCanonical s → step s = .next t → MemoryCanonical t

/-- R34, R40, R44, R70, R223, R227: every step keeps the sequencer's state consistent: a transaction is
outstanding only for a running port command, the FSM state agrees with it, an ABORT is pending only while
nothing has been written, STEP never passes 8, CMD and LASTOP are those of the latched word. A reset keeps the
last because the model's latch then holds zeros (log 6): R280 says only that no command is latched. -/
def Obligations.StepKeepsSequencerConsistent : Prop :=
  ∀ s t : State, SequencerInv s → step s = .next t → SequencerInv t

/-- R30: every step keeps the invariants of ClockState. -/
def Obligations.StepKeepsClockInvariant : Prop :=
  ∀ s t : State, SequencerInv s → ClockInv s → step s = .next t → ClockInv t

/-- R224, R40: but for a reset, S.state changes only by the listed transitions. -/
def Obligations.FsmMovesOnlyAsListed : Prop :=
  ∀ s t : State, SequencerInv s → ¬ ResetNext s → step s = .next t →
    FsmMove s.status.fsm t.status.fsm

/-- R23, R25, R39: but for a reset, the reference, the bounds and INIT change only in the step in which an
INIT that started uninitialized finishes NONE; so once INIT is set none of them changes. -/
def Obligations.ReferenceImmutableOnceInitialized : Prop :=
  ∀ s t : State, MachineInv s → ¬ ResetNext s → step s = .next t →
    (t.clock.referenceHz = s.clock.referenceHz ∧ t.clock.minHz = s.clock.minHz ∧
      t.clock.maxHz = s.clock.maxHz ∧ t.status.initialized = s.status.initialized) ∨
    (Running s .init ∧ s.status.initialized = false ∧ t.status.initialized = true ∧
      t.status.err = .none ∧ t.status.busy = false ∧
      t.clock.referenceHz = s.hidden.latch.a0 ∧ t.clock.minHz = s.hidden.latch.a1 ∧
      t.clock.maxHz = s.hidden.latch.a2)

/-- R24: but for a reset, requested_hz and actual_hz change only when a SET_RATE finishes NONE, both to the
new rate, or an INIT finishes NONE, both to the initial rate. -/
def Obligations.RatesChangeOnlyOnSuccess : Prop :=
  ∀ s t : State, SequencerInv s → ¬ ResetNext s → step s = .next t →
    (t.clock.requestedHz = s.clock.requestedHz ∧ t.clock.actualHz = s.clock.actualHz) ∨
    (t.status.err = .none ∧ t.status.busy = false ∧
      ((Running s .setRate ∧ t.clock.requestedHz = s.hidden.latch.a0 ∧
          t.clock.actualHz = s.hidden.latch.a0) ∨
       (Running s .init ∧ t.clock.requestedHz = s.hidden.latch.a3 ∧
          t.clock.actualHz = s.hidden.latch.a3)))

/-- R39, R256: CHIP_UNDEF is set only by a Fail answer to an outstanding write, and, but for a reset, cleared
only by a SET_RATE that succeeds. -/
def Obligations.ChipUndefChangesOnlyAsStated : Prop :=
  ∀ s t : State, SequencerInv s → step s = .next t →
    (s.status.chipUndef = false → t.status.chipUndef = true →
      ∃ es c rest, s.hidden.pending = some (.write es) ∧ s.inputs = .port (.fail c) :: rest ∧
        t.status.err = .transportFailure ∧ t.regs.portErr = c) ∧
    (s.status.chipUndef = true → t.status.chipUndef = false →
      ResetNext s ∨ (Running s .setRate ∧ t.status.err = .none ∧ t.status.busy = false ∧
        t.status.divValid = true))

/-- R33: RES0 to RES3 are written only when a command finishes with NONE, and then only those its rule
lists: all four for SOLVE, RES0 and RES1 for CLASSIFY, none for ABORT and the port commands, RES0 for every
other. -/
def Obligations.ResultsWrittenOnlyOnNone : Prop :=
  ∀ (i : Instr) (s t : State), exec i s = .next t →
    (t.regs.res0 = s.regs.res0 ∧ t.regs.res1 = s.regs.res1 ∧ t.regs.res2 = s.regs.res2 ∧
      t.regs.res3 = s.regs.res3) ∨
    (t.status.err = .none ∧ t.status.busy = false ∧ ¬ PortCommand i ∧ i ≠ .abort ∧
      (i ≠ .solve → t.regs.res2 = s.regs.res2 ∧ t.regs.res3 = s.regs.res3) ∧
      (i ≠ .solve → i ≠ .classify → t.regs.res1 = s.regs.res1))

/-- R64, R60: PLL-FSC only ever has one of the listed transactions outstanding. -/
def Obligations.PortTrafficAsListed : Prop :=
  (∀ tx, State.reset.hidden.pending = some tx → LegalTxn tx) ∧
  ∀ s t : State, SequencerInv s → (∀ tx, s.hidden.pending = some tx → LegalTxn tx) →
    step s = .next t → ∀ tx, t.hidden.pending = some tx → LegalTxn tx

/-- R255, R127: no step faults; a step is refused exactly when a field map is ill-formed; and no step changes
the maps. That the maps are held in the state is the model's choice (log 3). That nothing else is refused rests
on its choice to be an instance that has both band tuples (log 4): R184 asks a second refusal of an instance
without one. That every other step answers, one with nothing to do included, is its choice too (logs 11
and 15). -/
def Obligations.StepNeverFaults : Prop :=
  ∀ s : State, (∀ f, step s ≠ .fault f) ∧
    (mapsOk s.maps = false → step s = .refused .illFormedFieldMap) ∧
    (mapsOk s.maps = true → ∃ t, step s = .next t ∧ t.maps = s.maps)
end

