-- ==== Sys2Proof/Laws/Config.lean ====
section
/-! SUPPORT. The value of each configuration field in the instance the model runs with (00_scope.md R6).
A proof that needs a number rewrites with these; no other file writes a number of R6 into a
definition. -/

namespace Sys2Proof.Machine

open Sys2Proof

@[simp] theorem config_divoMin : config.divoMin = 4 := rfl
@[simp] theorem config_divoMax : config.divoMax = 511 := rfl
@[simp] theorem config_divnMin : config.divnMin = 41 := rfl
@[simp] theorem config_divnMax : config.divnMax = 216 := rfl
@[simp] theorem config_fvcoMin : config.fvcoMin = 6860000000 := rfl
@[simp] theorem config_fvcoMax : config.fvcoMax = 8650000000 := rfl
@[simp] theorem config_fracBits : config.fracBits = 24 := rfl
@[simp] theorem config_partMinHz : config.partMinHz = 16000000 := rfl
@[simp] theorem config_partMaxHz : config.partMaxHz = 2100000000 := rfl
@[simp] theorem config_cpBreak1 : config.cpBreak1 = 7000000000 := rfl
@[simp] theorem config_cpBreak2 : config.cpBreak2 = 7400000000 := rfl
@[simp] theorem config_cpBreak3 : config.cpBreak3 = 7800000000 := rfl
@[simp] theorem config_smallThreshold : config.smallThreshold = 5 := rfl
@[simp] theorem config_classScale : config.classScale = 10000 := rfl
@[simp] theorem config_divBase : config.divBase = 0x10 := rfl
@[simp] theorem config_divLen : config.divLen = 6 := rfl
@[simp] theorem config_xoBase : config.xoBase = 0x50 := rfl
@[simp] theorem config_xoLen : config.xoLen = 8 := rfl
@[simp] theorem config_ctrlAddr : config.ctrlAddr = 0x60 := rfl
@[simp] theorem config_trigAddr : config.trigAddr = 0x62 := rfl
@[simp] theorem config_setupSeq : config.setupSeq = [0x00, 0x20, 0x00, 0x01, 0x00] := rfl
@[simp] theorem config_trigLarge : config.trigLarge = [0x01, 0x00] := rfl
@[simp] theorem config_trigSmall : config.trigSmall = [0x02, 0x00] := rfl
@[simp] theorem config_xoBand1Lo : config.xoBand1Lo = 40000000 := rfl
@[simp] theorem config_xoBand1Hi : config.xoBand1Hi = 80000000 := rfl
@[simp] theorem config_xoBand2Lo : config.xoBand2Lo = 100000000 := rfl
@[simp] theorem config_xoBand2End : config.xoBand2End = 140000000 := rfl
@[simp] theorem config_xoBand3Lo : config.xoBand3Lo = 140000000 := rfl
@[simp] theorem config_xoBand3Hi : config.xoBand3Hi = 166000000 := rfl
@[simp] theorem config_bulkLen : config.bulkLen = 256 := rfl

end Sys2Proof.Machine
end

