-- ==== Sys2Proof/Laws/Codec.lean ====
section
/-! SUPPORT. The codec bit by bit (40_bitfield_codec.md R120 to R122), and that writing a field of a
well-formed map never fails when the value is below 2^width (R126, R134). -/

namespace Sys2Proof.Machine

open Sys2Proof

/-- `lsb` is the index of the lowest set bit (00_scope.md R10). -/
theorem lsb_lowest : ∀ m : Byte, m ≠ 0 → m.getLsbD (lsb m) = true ∧ ∀ j < lsb m, m.getLsbD j = false := by
  decide

/-- Where the bits of a contiguous mask stand. -/
theorem contiguous_shape : ∀ m : Byte, m ≠ 0 → contiguous m = true →
    lsb m + popcount m ≤ 8 ∧ ∀ i < 8, m.getLsbD i = decide (lsb m ≤ i ∧ i < lsb m + popcount m) := by
  decide

/-- The bits of a contiguous mask. -/
theorem contiguous_getLsbD {m : Byte} (h0 : m ≠ 0) (hc : contiguous m = true) (i : Nat) :
    m.getLsbD i = decide (lsb m ≤ i ∧ i < lsb m + popcount m) := by
  obtain ⟨h8, hs⟩ := contiguous_shape m h0 hc
  by_cases hi : i < 8
  · exact hs i hi
  · rw [BitVec.getLsbD_of_ge m i (by omega)]
    symm
    rw [decide_eq_false_iff_not]
    omega

/-- `fits` bit by bit (R120). -/
theorem fits_iff {m : Byte} (h0 : m ≠ 0) (v : Nat) :
    fits v m = true ↔ ∀ i, v.testBit i = true → m.getLsbD (i + lsb m) = true := by
  simp only [fits, Bool.and_eq_true, bne_iff_ne, ne_eq, h0, not_false_eq_true, true_and, beq_iff_eq]
  constructor
  · intro h i hi
    have := congrArg (Nat.testBit · (i + lsb m)) h
    simp only [Nat.testBit_and, Nat.testBit_shiftLeft, BitVec.testBit_toNat] at this
    simpa [hi] using this
  · intro h
    apply Nat.eq_of_testBit_eq
    intro j
    simp only [Nat.testBit_and, Nat.testBit_shiftLeft, BitVec.testBit_toNat]
    by_cases hj : lsb m ≤ j
    · cases hv : v.testBit (j - lsb m)
      · simp
      · have := h _ hv
        rw [Nat.sub_add_cancel hj] at this
        simp [hj, this]
    · simp [hj]

/-- A value below 2^popcount fits a contiguous mask (R120). -/
theorem fits_of_lt {m : Byte} (h0 : m ≠ 0) (hc : contiguous m = true) {v : Nat}
    (hv : v < 2 ^ popcount m) : fits v m = true := by
  rw [fits_iff h0]
  intro i hi
  rw [contiguous_getLsbD h0 hc, decide_eq_true_iff]
  have : i < popcount m := by
    by_contra hn
    have := Nat.testBit_lt_two_pow (x := v) (i := i) (lt_of_lt_of_le hv (Nat.pow_le_pow_right (by omega) (by omega)))
    simp [this] at hi
  omega

/-- A packed byte bit by bit (R121). -/
theorem packBits_getLsbD {e m : Byte} {v : Nat} (h0 : m ≠ 0) (hf : fits v m = true) {i : Nat} :
    (packBits e v m).getLsbD i =
      if m.getLsbD i then decide (lsb m ≤ i) && v.testBit (i - lsb m) else e.getLsbD i := by
  have hf := (fits_iff h0 v).1 hf
  by_cases hi : i < 8
  · simp only [packBits, BitVec.getLsbD_or, BitVec.getLsbD_and, BitVec.getLsbD_not, hi, decide_true, Bool.true_and, BitVec.getLsbD_ofNat, Nat.testBit_shiftLeft]
    cases hm : m.getLsbD i
    · simp only [Bool.not_false, Bool.and_true, Bool.false_eq_true, if_false]
      by_cases hl : lsb m ≤ i
      · cases hv : v.testBit (i - lsb m)
        · simp
        · have := hf _ hv
          rw [Nat.sub_add_cancel hl, hm] at this
          simp at this
      · simp [hl]
    · simp
  · rw [BitVec.getLsbD_of_ge _ i (by omega), BitVec.getLsbD_of_ge _ i (by omega), BitVec.getLsbD_of_ge _ i (by omega)]
    simp

/-- An unpacked value bit by bit (R122). -/
theorem unpackBits_testBit (b m : Byte) (i : Nat) :
    (unpackBits b m).testBit i = (b.getLsbD (i + lsb m) && m.getLsbD (i + lsb m)) := by
  simp [unpackBits, Nat.testBit_shiftRight, Nat.add_comm, BitVec.testBit_toNat]

/-- pack of a value that fits (R121). -/
theorem pack_eq {e m : Byte} {v : Nat} (h0 : m ≠ 0) (hf : fits v m = true) :
    pack e v m = .ok (packBits e v m) := by
  simp [pack, show ¬ m = 0#8 from h0, hf]

/-- An unpacked value of a contiguous mask has popcount bits. -/
theorem unpackBits_lt {b m : Byte} (h0 : m ≠ 0) (hc : contiguous m = true) :
    unpackBits b m < 2 ^ popcount m := by
  apply Nat.lt_pow_two_of_testBit
  intro i hi
  rw [unpackBits_testBit, contiguous_getLsbD h0 hc]
  have : ¬ i + lsb m < lsb m + popcount m := by omega
  simp [this]

/-- The loop of PutField never fails on well-formed pieces. -/
theorem putPieces_ok {n : Nat} (ps : List Piece) (h : masksOk ps = true) :
    ∀ (img : Vector Byte n) (v : Nat), ∃ out, putPieces img ps v = .ok out := by
  induction ps with
  | nil => intro img v; exact ⟨img, rfl⟩
  | cons p ps ih =>
    intro img v
    simp only [masksOk, List.all_cons, Bool.and_eq_true, bne_iff_ne] at h
    have hf : fits (v % 2 ^ popcount p.mask) p.mask = true := fits_of_lt h.1.1 h.1.2 (Nat.mod_lt _ (Nat.two_pow_pos _))
    simp only [putPieces, pack_eq h.1.1 hf]
    exact ih h.2 _ _

/-- PutField of a value below 2^width never fails on a well-formed field (R126). -/
theorem putField_ok {n : Nat} {ps : List Piece} (h : masksOk ps = true) (img : Vector Byte n) {v : Nat} (hv : v < 2 ^ width ps) :
    ∃ out, putField img ps v = .ok out := by
  simp only [putField, ge_iff_le, Nat.not_le.2 hv, if_false]
  exact putPieces_ok ps h img v

/-- An unpacked value depends only on the masked bits (R122). -/
theorem unpackBits_congr {a b m : Byte}
    (h : ∀ j, m.getLsbD j = true → a.getLsbD j = b.getLsbD j) : unpackBits a m = unpackBits b m := by
  apply Nat.eq_of_testBit_eq
  intro i
  rw [unpackBits_testBit, unpackBits_testBit]
  cases hm : m.getLsbD (i + lsb m)
  · simp
  · simp [h _ hm]

/-- A field depends only on the bits of its pieces (R126). -/
theorem getField_congr {n : Nat} {x y : Vector Byte n} (ps : List Piece)
    (h : ∀ p ∈ ps, ∀ j, p.mask.getLsbD j = true →
      (imgByte x p.off).getLsbD j = (imgByte y p.off).getLsbD j) :
    getField x ps = getField y ps := by
  induction ps with
  | nil => rfl
  | cons p ps ih =>
    simp only [getField]
    rw [unpackBits_congr (h p List.mem_cons_self),
      ih fun q hq => h q (List.mem_cons_of_mem _ hq)]

/-- A byte of an image inside its block. -/
theorem imgByte_getElem {n : Nat} (img : Vector Byte n) {i : Nat} (h : i < n) :
    imgByte img i = img[i] := by
  simp [imgByte, h]

/-- A byte of an image after one byte is set. -/
theorem imgByte_setIfInBounds {n : Nat} (img : Vector Byte n) {i : Nat} (j : Nat) (b : Byte)
    (hi : i < n) : imgByte (img.setIfInBounds i b) j = if i = j then b else imgByte img j := by
  unfold imgByte
  by_cases hj : j < n
  · simp only [hj, Vector.getElem?_eq_getElem, Option.getD_some, Vector.getElem_setIfInBounds]
  · have : i ≠ j := by omega
    simp [hj, this]

/-- Disjoint pieces of one byte share no bit (R127). -/
theorem disjoint_bits {p q : Piece} (h : disjoint p q = true) (ho : p.off = q.off) {j : Nat}
    (hp : p.mask.getLsbD j = true) : q.mask.getLsbD j = false := by
  simp only [disjoint, ho, bne_self_eq_false, Bool.false_or, beq_iff_eq] at h
  have := congrArg (BitVec.getLsbD · j) h
  simpa [BitVec.getLsbD_and, hp] using this

/-- Disjointness of a concatenation. -/
theorem piecesDisjoint_append {ps qs : List Piece} (h : piecesDisjoint (ps ++ qs) = true) :
    piecesDisjoint ps = true ∧ piecesDisjoint qs = true ∧
      ∀ p ∈ ps, ∀ q ∈ qs, disjoint p q = true := by
  induction ps with
  | nil => exact ⟨rfl, h, by simp⟩
  | cons p ps ih =>
    simp only [List.cons_append, piecesDisjoint, Bool.and_eq_true, List.all_append] at h
    obtain ⟨⟨h1, h2⟩, h3⟩ := h
    obtain ⟨i1, i2, i3⟩ := ih h3
    refine ⟨by simp [piecesDisjoint, h1, i1], i2, ?_⟩
    intro p' hp' q hq
    rcases List.mem_cons.1 hp' with rfl | hp'
    · exact List.all_eq_true.1 h2 q hq
    · exact i3 p' hp' q hq

/-- The image after a field that succeeds, then the next. -/
theorem thenPut_ok {n : Nat} {ps : List Piece} (h : masksOk ps = true)
    {x : Except ErrCode (Vector Byte n)} (hx : ∃ img, x = .ok img) {v : Nat} (hv : v < 2 ^ width ps) :
    ∃ out, thenPut x ps v = .ok out := by
  obtain ⟨img, rfl⟩ := hx
  exact putField_ok h img hv

/-- Masks of a concatenation. -/
theorem masksOk_append (ps qs : List Piece) :
    masksOk (ps ++ qs) = (masksOk ps && masksOk qs) := by
  simp [masksOk]

/-- EncodeDiv never fails under a well-formed map (R134). -/
theorem encodeDiv_ok {m : DivMap} (hm : divMapOk m = true) (img : DivImage) (r : DividerSet)
    (cp : BitVec 3) : ∃ out, encodeDiv m img r cp = .ok out := by
  simp only [divMapOk, divPieces, masksOk_append, divWidthsOk, Bool.and_eq_true, beq_iff_eq] at hm
  obtain ⟨⟨⟨⟨⟨⟨h1, h2⟩, h3⟩, h4⟩, -⟩, -⟩, ⟨⟨w1, w2⟩, w3⟩, w4⟩ := hm
  refine thenPut_ok h4 (thenPut_ok h3 (thenPut_ok h2 (putField_ok h1 img ?_) ?_) ?_) ?_
  · rw [w1]; exact r.outputDivider.isLt
  · rw [w2]; exact r.feedbackInt.isLt
  · rw [w3]; exact r.feedbackFrac.isLt
  · rw [w4]; exact cp.isLt

/-- The masks of a well-formed XO map, field by field. -/
theorem xoMasks {m : XoMap} (hm : xoMapOk m = true) :
    masksOk m.doublerDisabled = true ∧ masksOk m.amplifierGm = true ∧ masksOk m.capX1 = true ∧
    masksOk m.ampSlice = true ∧ masksOk m.capX2 = true ∧ masksOk m.overtoneDisabled = true ∧
    masksOk m.overtoneResistor = true ∧ masksOk m.oeMode = true ∧ masksOk m.vsel = true := by
  simp only [xoMapOk, xoPieces, masksOk_append, Bool.and_eq_true] at hm
  tauto

/-- EncodeXoTrim never fails once every field value fits (44_sequencer.md R203, R222). -/
theorem encodeXoTrim_ok {m : XoMap} (hm : xoMapOk m = true) (img : XoImage) {t : XoSettings}
    (ht : trimFits m t = true) : ∃ out, encodeXoTrim m img t = .ok out := by
  obtain ⟨h1, h2, h3, h4, h5, h6, h7, -, -⟩ := xoMasks hm
  simp only [trimFits, Bool.and_eq_true, decide_eq_true_eq] at ht
  obtain ⟨⟨⟨⟨⟨⟨w1, w2⟩, w3⟩, w4⟩, w5⟩, w6⟩, w7⟩ := ht
  exact thenPut_ok h7 (thenPut_ok h6 (thenPut_ok h5 (thenPut_ok h4 (thenPut_ok h3 (thenPut_ok h2
    (putField_ok h1 img w1) w2) w3) w4) w5) w6) w7

/-- EncodeXoUser never fails once both values fit (44_sequencer.md R220). -/
theorem encodeXoUser_ok {m : XoMap} (hm : xoMapOk m = true) (img : XoImage) {oe vs : Byte}
    (hu : userFits m oe vs = true) : ∃ out, encodeXoUser m img oe vs = .ok out := by
  obtain ⟨-, -, -, -, -, -, -, h8, h9⟩ := xoMasks hm
  simp only [userFits, Bool.and_eq_true, decide_eq_true_eq] at hu
  exact thenPut_ok h9 (putField_ok h8 img hu.1) hu.2

end Sys2Proof.Machine
end

