-- ==== Sys2Proof/Laws/Words.lean ====
section
/-! SUPPORT. Reading back the fields of the words the model builds: command words, host words of four
bytes, and the naturals of the result words. -/

namespace Sys2Proof

open Machine

@[simp] theorem opField_wordOfFields (op f1 f2 f3 : Byte) : opField (wordOfFields op f1 f2 f3) = op := by
  apply BitVec.eq_of_getLsbD_eq
  intro j hj
  have h : j < 32 := by omega
  simp only [opField, wordOfFields, BitVec.getLsbD_setWidth, BitVec.getLsbD_append,
    BitVec.getLsbD_extractLsb', hj, decide_true, Bool.true_and]
  simp [h, hj]

@[simp] theorem f1Field_wordOfFields (op f1 f2 f3 : Byte) : f1Field (wordOfFields op f1 f2 f3) = f1 := by
  apply BitVec.eq_of_getLsbD_eq
  intro j hj
  have h1 : 8 + j < 32 := by omega
  simp only [f1Field, wordOfFields, BitVec.getLsbD_setWidth, BitVec.getLsbD_append,
    BitVec.getLsbD_extractLsb', hj, decide_true, Bool.true_and]
  simp [h1, hj]

@[simp] theorem f2Field_wordOfFields (op f1 f2 f3 : Byte) : f2Field (wordOfFields op f1 f2 f3) = f2 := by
  apply BitVec.eq_of_getLsbD_eq
  intro j hj
  have h1 : 16 + j < 32 := by omega
  have h2 : ¬ 16 + j < 8 := by omega
  have h3 : 16 + j - 8 - 8 = j := by omega
  have h4 : ¬ 16 + j - 8 < 8 := by omega
  simp only [f2Field, wordOfFields, BitVec.getLsbD_setWidth, BitVec.getLsbD_append,
    BitVec.getLsbD_extractLsb', hj, decide_true, Bool.true_and]
  simp [h1, h2, h3, h4, hj]

@[simp] theorem f3Field_wordOfFields (op f1 f2 f3 : Byte) : f3Field (wordOfFields op f1 f2 f3) = f3 := by
  apply BitVec.eq_of_getLsbD_eq
  intro j hj
  have h1 : 24 + j < 32 := by omega
  have h2 : ¬ 24 + j < 8 := by omega
  have h3 : 24 + j - 8 - 8 - 8 = j := by omega
  have h4 : ¬ 24 + j - 8 < 8 := by omega
  have h5 : ¬ 24 + j - 8 - 8 < 8 := by omega
  simp only [f3Field, wordOfFields, BitVec.getLsbD_setWidth, BitVec.getLsbD_append,
    BitVec.getLsbD_extractLsb', hj, decide_true, Bool.true_and]
  simp [h1, h2, h3, h4, h5]

/-- A word is the word of its four fields. -/
@[simp] theorem wordOfFields_fields (w : Word) :
    wordOfFields (opField w) (f1Field w) (f2Field w) (f3Field w) = w := by
  apply BitVec.eq_of_getLsbD_eq
  intro j hj
  simp only [wordOfFields, opField, f1Field, f2Field, f3Field, BitVec.getLsbD_setWidth,
    BitVec.getLsbD_append, BitVec.getLsbD_extractLsb', hj, decide_true, Bool.true_and]
  by_cases h1 : j < 8
  · simp [h1]
  · by_cases h2 : j < 16
    · have a : j - 8 < 8 := by omega
      have b : 8 + (j - 8) = j := by omega
      simp [h1, a, b]
    · by_cases h3 : j < 24
      · have a : ¬ j - 8 < 8 := by omega
        have b : 16 + (j - 8 - 8) = j := by omega
        have c : j - 8 - 8 < 8 := by omega
        simp [h1, a, b, c]
      · have a : ¬ j - 8 < 8 := by omega
        have b : 24 + (j - 8 - 8 - 8) = j := by omega
        have c : ¬ j - 8 - 8 < 8 := by omega
        have d : j - 8 - 8 - 8 < 8 := by omega
        simp [h1, a, b, c, d]

namespace Machine

/-- The word just accepted is the latched word. -/
theorem latchedWord_accept (s : State) (w : Word) : latchedWord (accept s w) = w :=
  wordOfFields_fields w

/-- A host word is made of its bytes, the lower index less significant. -/
theorem byteOfWord_wordOfBytes (b0 b1 b2 b3 : Byte) :
    byteOfWord (wordOfBytes b0 b1 b2 b3) 0 = b0 ∧ byteOfWord (wordOfBytes b0 b1 b2 b3) 1 = b1 ∧
      byteOfWord (wordOfBytes b0 b1 b2 b3) 2 = b2 ∧ byteOfWord (wordOfBytes b0 b1 b2 b3) 3 = b3 :=
  ⟨opField_wordOfFields b0 b1 b2 b3, f1Field_wordOfFields b0 b1 b2 b3,
    f2Field_wordOfFields b0 b1 b2 b3, f3Field_wordOfFields b0 b1 b2 b3⟩

/-- A host word is the word of its four bytes. -/
theorem wordOfBytes_byteOfWord (w : Word) :
    wordOfBytes (byteOfWord w 0) (byteOfWord w 1) (byteOfWord w 2) (byteOfWord w 3) = w :=
  wordOfFields_fields w

/-- An offset names word j of the BULK window exactly when it lies in that word (10_state.md R31, R43). -/
theorem hostReg_bulk_iff (a : BitVec 12) (j : Nat) :
    hostReg a = .bulk j ↔ j < 64 ∧ a.toNat / 4 = 0x40 + j := by
  unfold hostReg
  generalize a.toNat / 4 = k
  constructor
  · intro h
    unfold hostRegOfWord at h
    split at h <;> first | cases h | skip
    split at h
    · rename_i hk
      rw [config_bulkLen] at hk
      cases h
      omega
    · cases h
  · rintro ⟨hj, rfl⟩
    unfold hostRegOfWord
    split <;> first | omega | skip
    rw [if_pos (by rw [config_bulkLen]; omega), Nat.add_sub_cancel_left]

/-- A concatenation as a natural. -/
theorem toNat_append_add {n m : Nat} (x : BitVec n) (y : BitVec m) :
    (x ++ y).toNat = x.toNat * 2 ^ m + y.toNat := by
  rw [BitVec.toNat_append, ← Nat.shiftLeft_add_eq_or_of_lt y.isLt, Nat.shiftLeft_eq]

/-- RES0 of SOLVE and DIVNO as a natural. -/
theorem divNoWord_toNat (r : DividerSet) :
    (divNoWord r).toNat = r.outputDivider.toNat + 2 ^ 16 * r.feedbackInt.toNat := by
  have h1 := r.outputDivider.isLt
  have h2 := r.feedbackInt.isLt
  simp only [divNoWord, BitVec.toNat_setWidth, toNat_append_add, BitVec.ofNat_eq_ofNat,
    BitVec.toNat_ofNat]
  omega

/-- The width of feedback_frac as a number (00_scope.md R6, FRAC_BITS). -/
theorem feedbackFrac_lt (r : DividerSet) : r.feedbackFrac.toNat < 2 ^ 24 := r.feedbackFrac.isLt

/-- RES1 of SOLVE as a natural. -/
theorem solveFracWord_toNat (r : DividerSet) (mode : SolveMode) : (solveFracWord r mode).toNat =
    r.feedbackFrac.toNat + (if mode = .fractional then 2 ^ 31 else 0) := by
  have h := feedbackFrac_lt r
  simp only [solveFracWord, BitVec.toNat_setWidth, toNat_append_add]
  cases mode <;> simp <;> omega

/-- VCO_LO and VCO_HI together are vco_hz. -/
theorem vcoWords_toNat (r : DividerSet) :
    (vcoLoWord r).toNat + 2 ^ 32 * (vcoHiWord r).toNat = r.vcoHz.toNat := by
  have h := r.vcoHz.isLt
  simp only [vcoLoWord, vcoHiWord, BitVec.extractLsb'_toNat, Nat.shiftRight_eq_div_pow]
  omega

/-- The 64-bit operand as a natural. -/
theorem argVco_eq (s : State) :
    argVco s = s.hidden.latch.a0.toNat + 2 ^ 32 * s.hidden.latch.a1.toNat := by
  simp only [argVco, toNat_append_add]
  omega

end Machine

end Sys2Proof
end

