-- ==== Sys2Proof/Laws/Decode.lean ====
section
/-! SUPPORT. The two format checks of the decoder, said once: what each accepts and what it refuses. -/

namespace Sys2Proof

theorem formatZ_ok {w : Word} {i j : Instr} : formatZ w i = .ok j ↔
    (f1Field w = 0 ∧ f2Field w = 0 ∧ f3Field w = 0) ∧ j = i := by
  unfold formatZ
  split <;> rename_i h
  · exact ⟨fun e => ⟨h, by cases e; rfl⟩, fun e => by rw [e.2]⟩
  · exact ⟨fun e => (by cases e), fun e => absurd e.1 h⟩

theorem formatZ_error {w : Word} {i : Instr} {e : Reject} : formatZ w i = .error e ↔
    ¬ (f1Field w = 0 ∧ f2Field w = 0 ∧ f3Field w = 0) ∧ e = .nonzeroField := by
  unfold formatZ
  split <;> rename_i h
  · exact ⟨fun x => (by cases x), fun x => absurd h x.1⟩
  · exact ⟨fun x => ⟨h, by cases x; rfl⟩, fun x => by rw [x.2]⟩

theorem formatF3Zero_ok {w : Word} {i j : Instr} : formatF3Zero w i = .ok j ↔
    f3Field w = 0 ∧ j = i := by
  unfold formatF3Zero
  split <;> rename_i h
  · exact ⟨fun e => ⟨h, by cases e; rfl⟩, fun e => by rw [e.2]⟩
  · exact ⟨fun e => (by cases e), fun e => absurd e.1 h⟩

theorem formatF3Zero_error {w : Word} {i : Instr} {e : Reject} : formatF3Zero w i = .error e ↔
    f3Field w ≠ 0 ∧ e = .nonzeroField := by
  unfold formatF3Zero
  split <;> rename_i h
  · exact ⟨fun x => (by cases x), fun x => absurd h x.1⟩
  · exact ⟨fun x => ⟨h, by cases x; rfl⟩, fun x => by rw [x.2]⟩

/-- A command word as a natural: its four fields, OP least significant (30_encoding.md R90). -/
theorem toNat_fields (w : Word) : w.toNat = (opField w).toNat + 2 ^ 8 * (f1Field w).toNat +
    2 ^ 16 * (f2Field w).toNat + 2 ^ 24 * (f3Field w).toNat := by
  have := w.isLt
  simp only [opField, f1Field, f2Field, f3Field, BitVec.extractLsb'_toNat,
    Nat.shiftRight_eq_div_pow]
  omega

/-- One branch of a chain of tests. -/
theorem ite_cases {α : Type} {c : Prop} [Decidable c] {x y z : α} (h : (if c then x else y) = z) :
    (c ∧ x = z) ∨ (¬ c ∧ y = z) := by
  by_cases hc : c
  · rw [if_pos hc] at h; exact .inl ⟨hc, h⟩
  · rw [if_neg hc] at h; exact .inr ⟨hc, h⟩

/-- A word that decodes has the opcode of its command (30_encoding.md R93). -/
theorem decodeWord_opcode {w : Word} {i : Instr} (h : decodeWord w = .ok i) :
    opField w = opcode i := by
  unfold decodeWord at h
  rcases ite_cases h with ⟨a, h⟩ | ⟨-, h⟩
  · obtain ⟨-, rfl⟩ := formatZ_ok.1 h; exact a
  rcases ite_cases h with ⟨a, h⟩ | ⟨-, h⟩
  · obtain ⟨-, rfl⟩ := formatZ_ok.1 h; exact a
  rcases ite_cases h with ⟨a, h⟩ | ⟨-, h⟩
  · obtain ⟨-, rfl⟩ := formatZ_ok.1 h; exact a
  rcases ite_cases h with ⟨a, h⟩ | ⟨-, h⟩
  · obtain ⟨-, rfl⟩ := formatZ_ok.1 h; exact a
  rcases ite_cases h with ⟨a, h⟩ | ⟨-, h⟩
  · obtain ⟨-, rfl⟩ := formatZ_ok.1 h; exact a
  rcases ite_cases h with ⟨a, h⟩ | ⟨-, h⟩
  · obtain ⟨-, rfl⟩ := formatF3Zero_ok.1 h; exact a
  rcases ite_cases h with ⟨a, h⟩ | ⟨-, h⟩
  · obtain ⟨-, rfl⟩ := formatZ_ok.1 h; exact a
  rcases ite_cases h with ⟨a, h⟩ | ⟨-, h⟩
  · obtain ⟨-, rfl⟩ := formatZ_ok.1 h; exact a
  rcases ite_cases h with ⟨a, h⟩ | ⟨-, h⟩
  · cases h; exact a
  rcases ite_cases h with ⟨a, h⟩ | ⟨-, h⟩
  · obtain ⟨-, rfl⟩ := formatF3Zero_ok.1 h; exact a
  rcases ite_cases h with ⟨a, h⟩ | ⟨-, h⟩
  · obtain ⟨-, rfl⟩ := formatZ_ok.1 h; exact a
  rcases ite_cases h with ⟨a, h⟩ | ⟨-, h⟩
  · obtain ⟨-, rfl⟩ := formatZ_ok.1 h; exact a
  rcases ite_cases h with ⟨a, h⟩ | ⟨-, h⟩
  · obtain ⟨-, rfl⟩ := formatZ_ok.1 h; exact a
  rcases ite_cases h with ⟨a, h⟩ | ⟨-, h⟩
  · obtain ⟨-, rfl⟩ := formatZ_ok.1 h; exact a
  cases h

end Sys2Proof
end

