-- ==== Sys2Proof/Laws/State.lean ====
section
/-! SUPPORT. What each named update of the state leaves in each field, true by rfl: no later proof
unfolds a record update. -/

namespace Sys2Proof.Machine

open Sys2Proof

section updates

variable (s : State)

/-! ### setFsm -/

@[simp] theorem setFsm_clock (f : FsmState) : (setFsm s f).clock = s.clock := rfl
@[simp] theorem setFsm_busy (f : FsmState) :
    (setFsm s f).status.busy = s.status.busy := rfl
@[simp] theorem setFsm_fsm (f : FsmState) :
    (setFsm s f).status.fsm = f := rfl
@[simp] theorem setFsm_initialized (f : FsmState) :
    (setFsm s f).status.initialized = s.status.initialized := rfl
@[simp] theorem setFsm_divValid (f : FsmState) :
    (setFsm s f).status.divValid = s.status.divValid := rfl
@[simp] theorem setFsm_chipUndef (f : FsmState) :
    (setFsm s f).status.chipUndef = s.status.chipUndef := rfl
@[simp] theorem setFsm_dropped (f : FsmState) :
    (setFsm s f).status.dropped = s.status.dropped := rfl
@[simp] theorem setFsm_cls (f : FsmState) :
    (setFsm s f).status.cls = s.status.cls := rfl
@[simp] theorem setFsm_fracMode (f : FsmState) :
    (setFsm s f).status.fracMode = s.status.fracMode := rfl
@[simp] theorem setFsm_abortPending (f : FsmState) :
    (setFsm s f).status.abortPending = s.status.abortPending := rfl
@[simp] theorem setFsm_err (f : FsmState) :
    (setFsm s f).status.err = s.status.err := rfl
@[simp] theorem setFsm_lastOp (f : FsmState) :
    (setFsm s f).status.lastOp = s.status.lastOp := rfl
@[simp] theorem setFsm_step (f : FsmState) :
    (setFsm s f).status.step = s.status.step := rfl
@[simp] theorem setFsm_regs (f : FsmState) : (setFsm s f).regs = s.regs := rfl
@[simp] theorem setFsm_imgDiv (f : FsmState) : (setFsm s f).imgDiv = s.imgDiv := rfl
@[simp] theorem setFsm_imgXo (f : FsmState) : (setFsm s f).imgXo = s.imgXo := rfl
@[simp] theorem setFsm_bulk (f : FsmState) : (setFsm s f).bulk = s.bulk := rfl
@[simp] theorem setFsm_hidden (f : FsmState) : (setFsm s f).hidden = s.hidden := rfl
@[simp] theorem setFsm_maps (f : FsmState) : (setFsm s f).maps = s.maps := rfl
@[simp] theorem setFsm_inputs (f : FsmState) : (setFsm s f).inputs = s.inputs := rfl
@[simp] theorem setFsm_readData (f : FsmState) : (setFsm s f).readData = s.readData := rfl

/-! ### setClass -/

@[simp] theorem setClass_clock (c : RateClass) : (setClass s c).clock = s.clock := rfl
@[simp] theorem setClass_busy (c : RateClass) :
    (setClass s c).status.busy = s.status.busy := rfl
@[simp] theorem setClass_fsm (c : RateClass) :
    (setClass s c).status.fsm = s.status.fsm := rfl
@[simp] theorem setClass_initialized (c : RateClass) :
    (setClass s c).status.initialized = s.status.initialized := rfl
@[simp] theorem setClass_divValid (c : RateClass) :
    (setClass s c).status.divValid = s.status.divValid := rfl
@[simp] theorem setClass_chipUndef (c : RateClass) :
    (setClass s c).status.chipUndef = s.status.chipUndef := rfl
@[simp] theorem setClass_dropped (c : RateClass) :
    (setClass s c).status.dropped = s.status.dropped := rfl
@[simp] theorem setClass_cls (c : RateClass) :
    (setClass s c).status.cls = c := rfl
@[simp] theorem setClass_fracMode (c : RateClass) :
    (setClass s c).status.fracMode = s.status.fracMode := rfl
@[simp] theorem setClass_abortPending (c : RateClass) :
    (setClass s c).status.abortPending = s.status.abortPending := rfl
@[simp] theorem setClass_err (c : RateClass) :
    (setClass s c).status.err = s.status.err := rfl
@[simp] theorem setClass_lastOp (c : RateClass) :
    (setClass s c).status.lastOp = s.status.lastOp := rfl
@[simp] theorem setClass_step (c : RateClass) :
    (setClass s c).status.step = s.status.step := rfl
@[simp] theorem setClass_regs (c : RateClass) : (setClass s c).regs = s.regs := rfl
@[simp] theorem setClass_imgDiv (c : RateClass) : (setClass s c).imgDiv = s.imgDiv := rfl
@[simp] theorem setClass_imgXo (c : RateClass) : (setClass s c).imgXo = s.imgXo := rfl
@[simp] theorem setClass_bulk (c : RateClass) : (setClass s c).bulk = s.bulk := rfl
@[simp] theorem setClass_hidden (c : RateClass) : (setClass s c).hidden = s.hidden := rfl
@[simp] theorem setClass_maps (c : RateClass) : (setClass s c).maps = s.maps := rfl
@[simp] theorem setClass_inputs (c : RateClass) : (setClass s c).inputs = s.inputs := rfl
@[simp] theorem setClass_readData (c : RateClass) : (setClass s c).readData = s.readData := rfl

/-! ### setChipUndef -/

@[simp] theorem setChipUndef_clock (b : Bool) : (setChipUndef s b).clock = s.clock := rfl
@[simp] theorem setChipUndef_busy (b : Bool) :
    (setChipUndef s b).status.busy = s.status.busy := rfl
@[simp] theorem setChipUndef_fsm (b : Bool) :
    (setChipUndef s b).status.fsm = s.status.fsm := rfl
@[simp] theorem setChipUndef_initialized (b : Bool) :
    (setChipUndef s b).status.initialized = s.status.initialized := rfl
@[simp] theorem setChipUndef_divValid (b : Bool) :
    (setChipUndef s b).status.divValid = s.status.divValid := rfl
@[simp] theorem setChipUndef_chipUndef (b : Bool) :
    (setChipUndef s b).status.chipUndef = b := rfl
@[simp] theorem setChipUndef_dropped (b : Bool) :
    (setChipUndef s b).status.dropped = s.status.dropped := rfl
@[simp] theorem setChipUndef_cls (b : Bool) :
    (setChipUndef s b).status.cls = s.status.cls := rfl
@[simp] theorem setChipUndef_fracMode (b : Bool) :
    (setChipUndef s b).status.fracMode = s.status.fracMode := rfl
@[simp] theorem setChipUndef_abortPending (b : Bool) :
    (setChipUndef s b).status.abortPending = s.status.abortPending := rfl
@[simp] theorem setChipUndef_err (b : Bool) :
    (setChipUndef s b).status.err = s.status.err := rfl
@[simp] theorem setChipUndef_lastOp (b : Bool) :
    (setChipUndef s b).status.lastOp = s.status.lastOp := rfl
@[simp] theorem setChipUndef_step (b : Bool) :
    (setChipUndef s b).status.step = s.status.step := rfl
@[simp] theorem setChipUndef_regs (b : Bool) : (setChipUndef s b).regs = s.regs := rfl
@[simp] theorem setChipUndef_imgDiv (b : Bool) : (setChipUndef s b).imgDiv = s.imgDiv := rfl
@[simp] theorem setChipUndef_imgXo (b : Bool) : (setChipUndef s b).imgXo = s.imgXo := rfl
@[simp] theorem setChipUndef_bulk (b : Bool) : (setChipUndef s b).bulk = s.bulk := rfl
@[simp] theorem setChipUndef_hidden (b : Bool) : (setChipUndef s b).hidden = s.hidden := rfl
@[simp] theorem setChipUndef_maps (b : Bool) : (setChipUndef s b).maps = s.maps := rfl
@[simp] theorem setChipUndef_inputs (b : Bool) : (setChipUndef s b).inputs = s.inputs := rfl
@[simp] theorem setChipUndef_readData (b : Bool) : (setChipUndef s b).readData = s.readData := rfl

/-! ### setDropped -/

@[simp] theorem setDropped_clock (b : Bool) : (setDropped s b).clock = s.clock := rfl
@[simp] theorem setDropped_busy (b : Bool) :
    (setDropped s b).status.busy = s.status.busy := rfl
@[simp] theorem setDropped_fsm (b : Bool) :
    (setDropped s b).status.fsm = s.status.fsm := rfl
@[simp] theorem setDropped_initialized (b : Bool) :
    (setDropped s b).status.initialized = s.status.initialized := rfl
@[simp] theorem setDropped_divValid (b : Bool) :
    (setDropped s b).status.divValid = s.status.divValid := rfl
@[simp] theorem setDropped_chipUndef (b : Bool) :
    (setDropped s b).status.chipUndef = s.status.chipUndef := rfl
@[simp] theorem setDropped_dropped (b : Bool) :
    (setDropped s b).status.dropped = b := rfl
@[simp] theorem setDropped_cls (b : Bool) :
    (setDropped s b).status.cls = s.status.cls := rfl
@[simp] theorem setDropped_fracMode (b : Bool) :
    (setDropped s b).status.fracMode = s.status.fracMode := rfl
@[simp] theorem setDropped_abortPending (b : Bool) :
    (setDropped s b).status.abortPending = s.status.abortPending := rfl
@[simp] theorem setDropped_err (b : Bool) :
    (setDropped s b).status.err = s.status.err := rfl
@[simp] theorem setDropped_lastOp (b : Bool) :
    (setDropped s b).status.lastOp = s.status.lastOp := rfl
@[simp] theorem setDropped_step (b : Bool) :
    (setDropped s b).status.step = s.status.step := rfl
@[simp] theorem setDropped_regs (b : Bool) : (setDropped s b).regs = s.regs := rfl
@[simp] theorem setDropped_imgDiv (b : Bool) : (setDropped s b).imgDiv = s.imgDiv := rfl
@[simp] theorem setDropped_imgXo (b : Bool) : (setDropped s b).imgXo = s.imgXo := rfl
@[simp] theorem setDropped_bulk (b : Bool) : (setDropped s b).bulk = s.bulk := rfl
@[simp] theorem setDropped_hidden (b : Bool) : (setDropped s b).hidden = s.hidden := rfl
@[simp] theorem setDropped_maps (b : Bool) : (setDropped s b).maps = s.maps := rfl
@[simp] theorem setDropped_inputs (b : Bool) : (setDropped s b).inputs = s.inputs := rfl
@[simp] theorem setDropped_readData (b : Bool) : (setDropped s b).readData = s.readData := rfl

/-! ### setAbortPending -/

@[simp] theorem setAbortPending_clock (b : Bool) : (setAbortPending s b).clock = s.clock := rfl
@[simp] theorem setAbortPending_busy (b : Bool) :
    (setAbortPending s b).status.busy = s.status.busy := rfl
@[simp] theorem setAbortPending_fsm (b : Bool) :
    (setAbortPending s b).status.fsm = s.status.fsm := rfl
@[simp] theorem setAbortPending_initialized (b : Bool) :
    (setAbortPending s b).status.initialized = s.status.initialized := rfl
@[simp] theorem setAbortPending_divValid (b : Bool) :
    (setAbortPending s b).status.divValid = s.status.divValid := rfl
@[simp] theorem setAbortPending_chipUndef (b : Bool) :
    (setAbortPending s b).status.chipUndef = s.status.chipUndef := rfl
@[simp] theorem setAbortPending_dropped (b : Bool) :
    (setAbortPending s b).status.dropped = s.status.dropped := rfl
@[simp] theorem setAbortPending_cls (b : Bool) :
    (setAbortPending s b).status.cls = s.status.cls := rfl
@[simp] theorem setAbortPending_fracMode (b : Bool) :
    (setAbortPending s b).status.fracMode = s.status.fracMode := rfl
@[simp] theorem setAbortPending_abortPending (b : Bool) :
    (setAbortPending s b).status.abortPending = b := rfl
@[simp] theorem setAbortPending_err (b : Bool) :
    (setAbortPending s b).status.err = s.status.err := rfl
@[simp] theorem setAbortPending_lastOp (b : Bool) :
    (setAbortPending s b).status.lastOp = s.status.lastOp := rfl
@[simp] theorem setAbortPending_step (b : Bool) :
    (setAbortPending s b).status.step = s.status.step := rfl
@[simp] theorem setAbortPending_regs (b : Bool) : (setAbortPending s b).regs = s.regs := rfl
@[simp] theorem setAbortPending_imgDiv (b : Bool) : (setAbortPending s b).imgDiv = s.imgDiv := rfl
@[simp] theorem setAbortPending_imgXo (b : Bool) : (setAbortPending s b).imgXo = s.imgXo := rfl
@[simp] theorem setAbortPending_bulk (b : Bool) : (setAbortPending s b).bulk = s.bulk := rfl
@[simp] theorem setAbortPending_hidden (b : Bool) : (setAbortPending s b).hidden = s.hidden := rfl
@[simp] theorem setAbortPending_maps (b : Bool) : (setAbortPending s b).maps = s.maps := rfl
@[simp] theorem setAbortPending_inputs (b : Bool) : (setAbortPending s b).inputs = s.inputs := rfl
@[simp] theorem setAbortPending_readData (b : Bool) : (setAbortPending s b).readData = s.readData := rfl

/-! ### countWrite -/

@[simp] theorem countWrite_clock : (countWrite s).clock = s.clock := rfl
@[simp] theorem countWrite_busy :
    (countWrite s).status.busy = s.status.busy := rfl
@[simp] theorem countWrite_fsm :
    (countWrite s).status.fsm = s.status.fsm := rfl
@[simp] theorem countWrite_initialized :
    (countWrite s).status.initialized = s.status.initialized := rfl
@[simp] theorem countWrite_divValid :
    (countWrite s).status.divValid = s.status.divValid := rfl
@[simp] theorem countWrite_chipUndef :
    (countWrite s).status.chipUndef = s.status.chipUndef := rfl
@[simp] theorem countWrite_dropped :
    (countWrite s).status.dropped = s.status.dropped := rfl
@[simp] theorem countWrite_cls :
    (countWrite s).status.cls = s.status.cls := rfl
@[simp] theorem countWrite_fracMode :
    (countWrite s).status.fracMode = s.status.fracMode := rfl
@[simp] theorem countWrite_abortPending :
    (countWrite s).status.abortPending = s.status.abortPending := rfl
@[simp] theorem countWrite_err :
    (countWrite s).status.err = s.status.err := rfl
@[simp] theorem countWrite_lastOp :
    (countWrite s).status.lastOp = s.status.lastOp := rfl
@[simp] theorem countWrite_step :
    (countWrite s).status.step = if s.status.step = 15 then 15 else s.status.step + 1 := rfl
@[simp] theorem countWrite_regs : (countWrite s).regs = s.regs := rfl
@[simp] theorem countWrite_imgDiv : (countWrite s).imgDiv = s.imgDiv := rfl
@[simp] theorem countWrite_imgXo : (countWrite s).imgXo = s.imgXo := rfl
@[simp] theorem countWrite_bulk : (countWrite s).bulk = s.bulk := rfl
@[simp] theorem countWrite_hidden : (countWrite s).hidden = s.hidden := rfl
@[simp] theorem countWrite_maps : (countWrite s).maps = s.maps := rfl
@[simp] theorem countWrite_inputs : (countWrite s).inputs = s.inputs := rfl
@[simp] theorem countWrite_readData : (countWrite s).readData = s.readData := rfl

/-! ### setPortErr -/

@[simp] theorem setPortErr_clock (c : Byte) : (setPortErr s c).clock = s.clock := rfl
@[simp] theorem setPortErr_status (c : Byte) : (setPortErr s c).status = s.status := rfl
@[simp] theorem setPortErr_cmd (c : Byte) :
    (setPortErr s c).regs.cmd = s.regs.cmd := rfl
@[simp] theorem setPortErr_arg0 (c : Byte) :
    (setPortErr s c).regs.arg0 = s.regs.arg0 := rfl
@[simp] theorem setPortErr_arg1 (c : Byte) :
    (setPortErr s c).regs.arg1 = s.regs.arg1 := rfl
@[simp] theorem setPortErr_arg2 (c : Byte) :
    (setPortErr s c).regs.arg2 = s.regs.arg2 := rfl
@[simp] theorem setPortErr_arg3 (c : Byte) :
    (setPortErr s c).regs.arg3 = s.regs.arg3 := rfl
@[simp] theorem setPortErr_res0 (c : Byte) :
    (setPortErr s c).regs.res0 = s.regs.res0 := rfl
@[simp] theorem setPortErr_res1 (c : Byte) :
    (setPortErr s c).regs.res1 = s.regs.res1 := rfl
@[simp] theorem setPortErr_res2 (c : Byte) :
    (setPortErr s c).regs.res2 = s.regs.res2 := rfl
@[simp] theorem setPortErr_res3 (c : Byte) :
    (setPortErr s c).regs.res3 = s.regs.res3 := rfl
@[simp] theorem setPortErr_portErr (c : Byte) :
    (setPortErr s c).regs.portErr = c := rfl
@[simp] theorem setPortErr_imgDiv (c : Byte) : (setPortErr s c).imgDiv = s.imgDiv := rfl
@[simp] theorem setPortErr_imgXo (c : Byte) : (setPortErr s c).imgXo = s.imgXo := rfl
@[simp] theorem setPortErr_bulk (c : Byte) : (setPortErr s c).bulk = s.bulk := rfl
@[simp] theorem setPortErr_hidden (c : Byte) : (setPortErr s c).hidden = s.hidden := rfl
@[simp] theorem setPortErr_maps (c : Byte) : (setPortErr s c).maps = s.maps := rfl
@[simp] theorem setPortErr_inputs (c : Byte) : (setPortErr s c).inputs = s.inputs := rfl
@[simp] theorem setPortErr_readData (c : Byte) : (setPortErr s c).readData = s.readData := rfl

/-! ### setRes0 -/

@[simp] theorem setRes0_clock (w : Word) : (setRes0 s w).clock = s.clock := rfl
@[simp] theorem setRes0_status (w : Word) : (setRes0 s w).status = s.status := rfl
@[simp] theorem setRes0_cmd (w : Word) :
    (setRes0 s w).regs.cmd = s.regs.cmd := rfl
@[simp] theorem setRes0_arg0 (w : Word) :
    (setRes0 s w).regs.arg0 = s.regs.arg0 := rfl
@[simp] theorem setRes0_arg1 (w : Word) :
    (setRes0 s w).regs.arg1 = s.regs.arg1 := rfl
@[simp] theorem setRes0_arg2 (w : Word) :
    (setRes0 s w).regs.arg2 = s.regs.arg2 := rfl
@[simp] theorem setRes0_arg3 (w : Word) :
    (setRes0 s w).regs.arg3 = s.regs.arg3 := rfl
@[simp] theorem setRes0_res0 (w : Word) :
    (setRes0 s w).regs.res0 = w := rfl
@[simp] theorem setRes0_res1 (w : Word) :
    (setRes0 s w).regs.res1 = s.regs.res1 := rfl
@[simp] theorem setRes0_res2 (w : Word) :
    (setRes0 s w).regs.res2 = s.regs.res2 := rfl
@[simp] theorem setRes0_res3 (w : Word) :
    (setRes0 s w).regs.res3 = s.regs.res3 := rfl
@[simp] theorem setRes0_portErr (w : Word) :
    (setRes0 s w).regs.portErr = s.regs.portErr := rfl
@[simp] theorem setRes0_imgDiv (w : Word) : (setRes0 s w).imgDiv = s.imgDiv := rfl
@[simp] theorem setRes0_imgXo (w : Word) : (setRes0 s w).imgXo = s.imgXo := rfl
@[simp] theorem setRes0_bulk (w : Word) : (setRes0 s w).bulk = s.bulk := rfl
@[simp] theorem setRes0_hidden (w : Word) : (setRes0 s w).hidden = s.hidden := rfl
@[simp] theorem setRes0_maps (w : Word) : (setRes0 s w).maps = s.maps := rfl
@[simp] theorem setRes0_inputs (w : Word) : (setRes0 s w).inputs = s.inputs := rfl
@[simp] theorem setRes0_readData (w : Word) : (setRes0 s w).readData = s.readData := rfl

/-! ### setRes1 -/

@[simp] theorem setRes1_clock (w : Word) : (setRes1 s w).clock = s.clock := rfl
@[simp] theorem setRes1_status (w : Word) : (setRes1 s w).status = s.status := rfl
@[simp] theorem setRes1_cmd (w : Word) :
    (setRes1 s w).regs.cmd = s.regs.cmd := rfl
@[simp] theorem setRes1_arg0 (w : Word) :
    (setRes1 s w).regs.arg0 = s.regs.arg0 := rfl
@[simp] theorem setRes1_arg1 (w : Word) :
    (setRes1 s w).regs.arg1 = s.regs.arg1 := rfl
@[simp] theorem setRes1_arg2 (w : Word) :
    (setRes1 s w).regs.arg2 = s.regs.arg2 := rfl
@[simp] theorem setRes1_arg3 (w : Word) :
    (setRes1 s w).regs.arg3 = s.regs.arg3 := rfl
@[simp] theorem setRes1_res0 (w : Word) :
    (setRes1 s w).regs.res0 = s.regs.res0 := rfl
@[simp] theorem setRes1_res1 (w : Word) :
    (setRes1 s w).regs.res1 = w := rfl
@[simp] theorem setRes1_res2 (w : Word) :
    (setRes1 s w).regs.res2 = s.regs.res2 := rfl
@[simp] theorem setRes1_res3 (w : Word) :
    (setRes1 s w).regs.res3 = s.regs.res3 := rfl
@[simp] theorem setRes1_portErr (w : Word) :
    (setRes1 s w).regs.portErr = s.regs.portErr := rfl
@[simp] theorem setRes1_imgDiv (w : Word) : (setRes1 s w).imgDiv = s.imgDiv := rfl
@[simp] theorem setRes1_imgXo (w : Word) : (setRes1 s w).imgXo = s.imgXo := rfl
@[simp] theorem setRes1_bulk (w : Word) : (setRes1 s w).bulk = s.bulk := rfl
@[simp] theorem setRes1_hidden (w : Word) : (setRes1 s w).hidden = s.hidden := rfl
@[simp] theorem setRes1_maps (w : Word) : (setRes1 s w).maps = s.maps := rfl
@[simp] theorem setRes1_inputs (w : Word) : (setRes1 s w).inputs = s.inputs := rfl
@[simp] theorem setRes1_readData (w : Word) : (setRes1 s w).readData = s.readData := rfl

/-! ### setRes2 -/

@[simp] theorem setRes2_clock (w : Word) : (setRes2 s w).clock = s.clock := rfl
@[simp] theorem setRes2_status (w : Word) : (setRes2 s w).status = s.status := rfl
@[simp] theorem setRes2_cmd (w : Word) :
    (setRes2 s w).regs.cmd = s.regs.cmd := rfl
@[simp] theorem setRes2_arg0 (w : Word) :
    (setRes2 s w).regs.arg0 = s.regs.arg0 := rfl
@[simp] theorem setRes2_arg1 (w : Word) :
    (setRes2 s w).regs.arg1 = s.regs.arg1 := rfl
@[simp] theorem setRes2_arg2 (w : Word) :
    (setRes2 s w).regs.arg2 = s.regs.arg2 := rfl
@[simp] theorem setRes2_arg3 (w : Word) :
    (setRes2 s w).regs.arg3 = s.regs.arg3 := rfl
@[simp] theorem setRes2_res0 (w : Word) :
    (setRes2 s w).regs.res0 = s.regs.res0 := rfl
@[simp] theorem setRes2_res1 (w : Word) :
    (setRes2 s w).regs.res1 = s.regs.res1 := rfl
@[simp] theorem setRes2_res2 (w : Word) :
    (setRes2 s w).regs.res2 = w := rfl
@[simp] theorem setRes2_res3 (w : Word) :
    (setRes2 s w).regs.res3 = s.regs.res3 := rfl
@[simp] theorem setRes2_portErr (w : Word) :
    (setRes2 s w).regs.portErr = s.regs.portErr := rfl
@[simp] theorem setRes2_imgDiv (w : Word) : (setRes2 s w).imgDiv = s.imgDiv := rfl
@[simp] theorem setRes2_imgXo (w : Word) : (setRes2 s w).imgXo = s.imgXo := rfl
@[simp] theorem setRes2_bulk (w : Word) : (setRes2 s w).bulk = s.bulk := rfl
@[simp] theorem setRes2_hidden (w : Word) : (setRes2 s w).hidden = s.hidden := rfl
@[simp] theorem setRes2_maps (w : Word) : (setRes2 s w).maps = s.maps := rfl
@[simp] theorem setRes2_inputs (w : Word) : (setRes2 s w).inputs = s.inputs := rfl
@[simp] theorem setRes2_readData (w : Word) : (setRes2 s w).readData = s.readData := rfl

/-! ### setRes3 -/

@[simp] theorem setRes3_clock (w : Word) : (setRes3 s w).clock = s.clock := rfl
@[simp] theorem setRes3_status (w : Word) : (setRes3 s w).status = s.status := rfl
@[simp] theorem setRes3_cmd (w : Word) :
    (setRes3 s w).regs.cmd = s.regs.cmd := rfl
@[simp] theorem setRes3_arg0 (w : Word) :
    (setRes3 s w).regs.arg0 = s.regs.arg0 := rfl
@[simp] theorem setRes3_arg1 (w : Word) :
    (setRes3 s w).regs.arg1 = s.regs.arg1 := rfl
@[simp] theorem setRes3_arg2 (w : Word) :
    (setRes3 s w).regs.arg2 = s.regs.arg2 := rfl
@[simp] theorem setRes3_arg3 (w : Word) :
    (setRes3 s w).regs.arg3 = s.regs.arg3 := rfl
@[simp] theorem setRes3_res0 (w : Word) :
    (setRes3 s w).regs.res0 = s.regs.res0 := rfl
@[simp] theorem setRes3_res1 (w : Word) :
    (setRes3 s w).regs.res1 = s.regs.res1 := rfl
@[simp] theorem setRes3_res2 (w : Word) :
    (setRes3 s w).regs.res2 = s.regs.res2 := rfl
@[simp] theorem setRes3_res3 (w : Word) :
    (setRes3 s w).regs.res3 = w := rfl
@[simp] theorem setRes3_portErr (w : Word) :
    (setRes3 s w).regs.portErr = s.regs.portErr := rfl
@[simp] theorem setRes3_imgDiv (w : Word) : (setRes3 s w).imgDiv = s.imgDiv := rfl
@[simp] theorem setRes3_imgXo (w : Word) : (setRes3 s w).imgXo = s.imgXo := rfl
@[simp] theorem setRes3_bulk (w : Word) : (setRes3 s w).bulk = s.bulk := rfl
@[simp] theorem setRes3_hidden (w : Word) : (setRes3 s w).hidden = s.hidden := rfl
@[simp] theorem setRes3_maps (w : Word) : (setRes3 s w).maps = s.maps := rfl
@[simp] theorem setRes3_inputs (w : Word) : (setRes3 s w).inputs = s.inputs := rfl
@[simp] theorem setRes3_readData (w : Word) : (setRes3 s w).readData = s.readData := rfl

/-! ### setImgDiv -/

@[simp] theorem setImgDiv_clock (v : DivImage) : (setImgDiv s v).clock = s.clock := rfl
@[simp] theorem setImgDiv_status (v : DivImage) : (setImgDiv s v).status = s.status := rfl
@[simp] theorem setImgDiv_regs (v : DivImage) : (setImgDiv s v).regs = s.regs := rfl
@[simp] theorem setImgDiv_imgDiv (v : DivImage) : (setImgDiv s v).imgDiv = v := rfl
@[simp] theorem setImgDiv_imgXo (v : DivImage) : (setImgDiv s v).imgXo = s.imgXo := rfl
@[simp] theorem setImgDiv_bulk (v : DivImage) : (setImgDiv s v).bulk = s.bulk := rfl
@[simp] theorem setImgDiv_hidden (v : DivImage) : (setImgDiv s v).hidden = s.hidden := rfl
@[simp] theorem setImgDiv_maps (v : DivImage) : (setImgDiv s v).maps = s.maps := rfl
@[simp] theorem setImgDiv_inputs (v : DivImage) : (setImgDiv s v).inputs = s.inputs := rfl
@[simp] theorem setImgDiv_readData (v : DivImage) : (setImgDiv s v).readData = s.readData := rfl

/-! ### setImgXo -/

@[simp] theorem setImgXo_clock (v : XoImage) : (setImgXo s v).clock = s.clock := rfl
@[simp] theorem setImgXo_status (v : XoImage) : (setImgXo s v).status = s.status := rfl
@[simp] theorem setImgXo_regs (v : XoImage) : (setImgXo s v).regs = s.regs := rfl
@[simp] theorem setImgXo_imgDiv (v : XoImage) : (setImgXo s v).imgDiv = s.imgDiv := rfl
@[simp] theorem setImgXo_imgXo (v : XoImage) : (setImgXo s v).imgXo = v := rfl
@[simp] theorem setImgXo_bulk (v : XoImage) : (setImgXo s v).bulk = s.bulk := rfl
@[simp] theorem setImgXo_hidden (v : XoImage) : (setImgXo s v).hidden = s.hidden := rfl
@[simp] theorem setImgXo_maps (v : XoImage) : (setImgXo s v).maps = s.maps := rfl
@[simp] theorem setImgXo_inputs (v : XoImage) : (setImgXo s v).inputs = s.inputs := rfl
@[simp] theorem setImgXo_readData (v : XoImage) : (setImgXo s v).readData = s.readData := rfl

/-! ### setSolution -/

@[simp] theorem setSolution_clock (r : DividerSet) (m : SolveMode) (c : BitVec 3) : (setSolution s r m c).clock = s.clock := rfl
@[simp] theorem setSolution_status (r : DividerSet) (m : SolveMode) (c : BitVec 3) : (setSolution s r m c).status = s.status := rfl
@[simp] theorem setSolution_regs (r : DividerSet) (m : SolveMode) (c : BitVec 3) : (setSolution s r m c).regs = s.regs := rfl
@[simp] theorem setSolution_imgDiv (r : DividerSet) (m : SolveMode) (c : BitVec 3) : (setSolution s r m c).imgDiv = s.imgDiv := rfl
@[simp] theorem setSolution_imgXo (r : DividerSet) (m : SolveMode) (c : BitVec 3) : (setSolution s r m c).imgXo = s.imgXo := rfl
@[simp] theorem setSolution_bulk (r : DividerSet) (m : SolveMode) (c : BitVec 3) : (setSolution s r m c).bulk = s.bulk := rfl
@[simp] theorem setSolution_latch (r : DividerSet) (m : SolveMode) (c : BitVec 3) :
    (setSolution s r m c).hidden.latch = s.hidden.latch := rfl
@[simp] theorem setSolution_solution (r : DividerSet) (m : SolveMode) (c : BitVec 3) :
    (setSolution s r m c).hidden.solution = r := rfl
@[simp] theorem setSolution_solutionMode (r : DividerSet) (m : SolveMode) (c : BitVec 3) :
    (setSolution s r m c).hidden.solutionMode = m := rfl
@[simp] theorem setSolution_cpCode (r : DividerSet) (m : SolveMode) (c : BitVec 3) :
    (setSolution s r m c).hidden.cpCode = c := rfl
@[simp] theorem setSolution_oeRead (r : DividerSet) (m : SolveMode) (c : BitVec 3) :
    (setSolution s r m c).hidden.oeRead = s.hidden.oeRead := rfl
@[simp] theorem setSolution_vselRead (r : DividerSet) (m : SolveMode) (c : BitVec 3) :
    (setSolution s r m c).hidden.vselRead = s.hidden.vselRead := rfl
@[simp] theorem setSolution_snap (r : DividerSet) (m : SolveMode) (c : BitVec 3) :
    (setSolution s r m c).hidden.snap = s.hidden.snap := rfl
@[simp] theorem setSolution_pending (r : DividerSet) (m : SolveMode) (c : BitVec 3) :
    (setSolution s r m c).hidden.pending = s.hidden.pending := rfl
@[simp] theorem setSolution_wrote (r : DividerSet) (m : SolveMode) (c : BitVec 3) :
    (setSolution s r m c).hidden.wrote = s.hidden.wrote := rfl
@[simp] theorem setSolution_maps (r : DividerSet) (m : SolveMode) (c : BitVec 3) : (setSolution s r m c).maps = s.maps := rfl
@[simp] theorem setSolution_inputs (r : DividerSet) (m : SolveMode) (c : BitVec 3) : (setSolution s r m c).inputs = s.inputs := rfl
@[simp] theorem setSolution_readData (r : DividerSet) (m : SolveMode) (c : BitVec 3) : (setSolution s r m c).readData = s.readData := rfl

/-! ### setUserRead -/

@[simp] theorem setUserRead_clock (x y : Byte) : (setUserRead s x y).clock = s.clock := rfl
@[simp] theorem setUserRead_status (x y : Byte) : (setUserRead s x y).status = s.status := rfl
@[simp] theorem setUserRead_regs (x y : Byte) : (setUserRead s x y).regs = s.regs := rfl
@[simp] theorem setUserRead_imgDiv (x y : Byte) : (setUserRead s x y).imgDiv = s.imgDiv := rfl
@[simp] theorem setUserRead_imgXo (x y : Byte) : (setUserRead s x y).imgXo = s.imgXo := rfl
@[simp] theorem setUserRead_bulk (x y : Byte) : (setUserRead s x y).bulk = s.bulk := rfl
@[simp] theorem setUserRead_latch (x y : Byte) :
    (setUserRead s x y).hidden.latch = s.hidden.latch := rfl
@[simp] theorem setUserRead_solution (x y : Byte) :
    (setUserRead s x y).hidden.solution = s.hidden.solution := rfl
@[simp] theorem setUserRead_solutionMode (x y : Byte) :
    (setUserRead s x y).hidden.solutionMode = s.hidden.solutionMode := rfl
@[simp] theorem setUserRead_cpCode (x y : Byte) :
    (setUserRead s x y).hidden.cpCode = s.hidden.cpCode := rfl
@[simp] theorem setUserRead_oeRead (x y : Byte) :
    (setUserRead s x y).hidden.oeRead = x := rfl
@[simp] theorem setUserRead_vselRead (x y : Byte) :
    (setUserRead s x y).hidden.vselRead = y := rfl
@[simp] theorem setUserRead_snap (x y : Byte) :
    (setUserRead s x y).hidden.snap = s.hidden.snap := rfl
@[simp] theorem setUserRead_pending (x y : Byte) :
    (setUserRead s x y).hidden.pending = s.hidden.pending := rfl
@[simp] theorem setUserRead_wrote (x y : Byte) :
    (setUserRead s x y).hidden.wrote = s.hidden.wrote := rfl
@[simp] theorem setUserRead_maps (x y : Byte) : (setUserRead s x y).maps = s.maps := rfl
@[simp] theorem setUserRead_inputs (x y : Byte) : (setUserRead s x y).inputs = s.inputs := rfl
@[simp] theorem setUserRead_readData (x y : Byte) : (setUserRead s x y).readData = s.readData := rfl

/-! ### setInputs -/

@[simp] theorem setInputs_clock (es : List Event) : (setInputs s es).clock = s.clock := rfl
@[simp] theorem setInputs_status (es : List Event) : (setInputs s es).status = s.status := rfl
@[simp] theorem setInputs_regs (es : List Event) : (setInputs s es).regs = s.regs := rfl
@[simp] theorem setInputs_imgDiv (es : List Event) : (setInputs s es).imgDiv = s.imgDiv := rfl
@[simp] theorem setInputs_imgXo (es : List Event) : (setInputs s es).imgXo = s.imgXo := rfl
@[simp] theorem setInputs_bulk (es : List Event) : (setInputs s es).bulk = s.bulk := rfl
@[simp] theorem setInputs_hidden (es : List Event) : (setInputs s es).hidden = s.hidden := rfl
@[simp] theorem setInputs_maps (es : List Event) : (setInputs s es).maps = s.maps := rfl
@[simp] theorem setInputs_inputs (es : List Event) : (setInputs s es).inputs = es := rfl
@[simp] theorem setInputs_readData (es : List Event) : (setInputs s es).readData = s.readData := rfl

/-! ### finish -/

@[simp] theorem finish_clock (e : ErrCode) : (finish s e).clock = s.clock := rfl
@[simp] theorem finish_busy (e : ErrCode) :
    (finish s e).status.busy = false := rfl
@[simp] theorem finish_fsm (e : ErrCode) :
    (finish s e).status.fsm = s.status.fsm := rfl
@[simp] theorem finish_initialized (e : ErrCode) :
    (finish s e).status.initialized = s.status.initialized := rfl
@[simp] theorem finish_divValid (e : ErrCode) :
    (finish s e).status.divValid = s.status.divValid := rfl
@[simp] theorem finish_chipUndef (e : ErrCode) :
    (finish s e).status.chipUndef = s.status.chipUndef := rfl
@[simp] theorem finish_dropped (e : ErrCode) :
    (finish s e).status.dropped = s.status.dropped := rfl
@[simp] theorem finish_cls (e : ErrCode) :
    (finish s e).status.cls = s.status.cls := rfl
@[simp] theorem finish_fracMode (e : ErrCode) :
    (finish s e).status.fracMode = s.status.fracMode := rfl
@[simp] theorem finish_abortPending (e : ErrCode) :
    (finish s e).status.abortPending = false := rfl
@[simp] theorem finish_err (e : ErrCode) :
    (finish s e).status.err = e := rfl
@[simp] theorem finish_lastOp (e : ErrCode) :
    (finish s e).status.lastOp = s.status.lastOp := rfl
@[simp] theorem finish_step (e : ErrCode) :
    (finish s e).status.step = s.status.step := rfl
@[simp] theorem finish_regs (e : ErrCode) : (finish s e).regs = s.regs := rfl
@[simp] theorem finish_imgDiv (e : ErrCode) : (finish s e).imgDiv = s.imgDiv := rfl
@[simp] theorem finish_imgXo (e : ErrCode) : (finish s e).imgXo = s.imgXo := rfl
@[simp] theorem finish_bulk (e : ErrCode) : (finish s e).bulk = s.bulk := rfl
@[simp] theorem finish_hidden (e : ErrCode) : (finish s e).hidden = s.hidden := rfl
@[simp] theorem finish_maps (e : ErrCode) : (finish s e).maps = s.maps := rfl
@[simp] theorem finish_inputs (e : ErrCode) : (finish s e).inputs = s.inputs := rfl
@[simp] theorem finish_readData (e : ErrCode) : (finish s e).readData = s.readData := rfl

/-! ### issueRead -/

@[simp] theorem issueRead_clock (a : Byte) (n : Nat) : (issueRead s a n).clock = s.clock := rfl
@[simp] theorem issueRead_status (a : Byte) (n : Nat) : (issueRead s a n).status = s.status := rfl
@[simp] theorem issueRead_regs (a : Byte) (n : Nat) : (issueRead s a n).regs = s.regs := rfl
@[simp] theorem issueRead_imgDiv (a : Byte) (n : Nat) : (issueRead s a n).imgDiv = s.imgDiv := rfl
@[simp] theorem issueRead_imgXo (a : Byte) (n : Nat) : (issueRead s a n).imgXo = s.imgXo := rfl
@[simp] theorem issueRead_bulk (a : Byte) (n : Nat) : (issueRead s a n).bulk = s.bulk := rfl
@[simp] theorem issueRead_latch (a : Byte) (n : Nat) :
    (issueRead s a n).hidden.latch = s.hidden.latch := rfl
@[simp] theorem issueRead_solution (a : Byte) (n : Nat) :
    (issueRead s a n).hidden.solution = s.hidden.solution := rfl
@[simp] theorem issueRead_solutionMode (a : Byte) (n : Nat) :
    (issueRead s a n).hidden.solutionMode = s.hidden.solutionMode := rfl
@[simp] theorem issueRead_cpCode (a : Byte) (n : Nat) :
    (issueRead s a n).hidden.cpCode = s.hidden.cpCode := rfl
@[simp] theorem issueRead_oeRead (a : Byte) (n : Nat) :
    (issueRead s a n).hidden.oeRead = s.hidden.oeRead := rfl
@[simp] theorem issueRead_vselRead (a : Byte) (n : Nat) :
    (issueRead s a n).hidden.vselRead = s.hidden.vselRead := rfl
@[simp] theorem issueRead_snap (a : Byte) (n : Nat) :
    (issueRead s a n).hidden.snap = s.hidden.snap := rfl
@[simp] theorem issueRead_pending (a : Byte) (n : Nat) :
    (issueRead s a n).hidden.pending = some (.read a n) := rfl
@[simp] theorem issueRead_wrote (a : Byte) (n : Nat) :
    (issueRead s a n).hidden.wrote = s.hidden.wrote := rfl
@[simp] theorem issueRead_maps (a : Byte) (n : Nat) : (issueRead s a n).maps = s.maps := rfl
@[simp] theorem issueRead_inputs (a : Byte) (n : Nat) : (issueRead s a n).inputs = s.inputs := rfl
@[simp] theorem issueRead_readData (a : Byte) (n : Nat) : (issueRead s a n).readData = s.readData := rfl

/-! ### issueWrite -/

@[simp] theorem issueWrite_clock (es : List (Byte × Byte)) : (issueWrite s es).clock = s.clock := rfl
@[simp] theorem issueWrite_status (es : List (Byte × Byte)) : (issueWrite s es).status = s.status := rfl
@[simp] theorem issueWrite_regs (es : List (Byte × Byte)) : (issueWrite s es).regs = s.regs := rfl
@[simp] theorem issueWrite_imgDiv (es : List (Byte × Byte)) : (issueWrite s es).imgDiv = s.imgDiv := rfl
@[simp] theorem issueWrite_imgXo (es : List (Byte × Byte)) : (issueWrite s es).imgXo = s.imgXo := rfl
@[simp] theorem issueWrite_bulk (es : List (Byte × Byte)) : (issueWrite s es).bulk = s.bulk := rfl
@[simp] theorem issueWrite_latch (es : List (Byte × Byte)) :
    (issueWrite s es).hidden.latch = s.hidden.latch := rfl
@[simp] theorem issueWrite_solution (es : List (Byte × Byte)) :
    (issueWrite s es).hidden.solution = s.hidden.solution := rfl
@[simp] theorem issueWrite_solutionMode (es : List (Byte × Byte)) :
    (issueWrite s es).hidden.solutionMode = s.hidden.solutionMode := rfl
@[simp] theorem issueWrite_cpCode (es : List (Byte × Byte)) :
    (issueWrite s es).hidden.cpCode = s.hidden.cpCode := rfl
@[simp] theorem issueWrite_oeRead (es : List (Byte × Byte)) :
    (issueWrite s es).hidden.oeRead = s.hidden.oeRead := rfl
@[simp] theorem issueWrite_vselRead (es : List (Byte × Byte)) :
    (issueWrite s es).hidden.vselRead = s.hidden.vselRead := rfl
@[simp] theorem issueWrite_snap (es : List (Byte × Byte)) :
    (issueWrite s es).hidden.snap = s.hidden.snap := rfl
@[simp] theorem issueWrite_pending (es : List (Byte × Byte)) :
    (issueWrite s es).hidden.pending = some (.write es) := rfl
@[simp] theorem issueWrite_wrote (es : List (Byte × Byte)) :
    (issueWrite s es).hidden.wrote = true := rfl
@[simp] theorem issueWrite_maps (es : List (Byte × Byte)) : (issueWrite s es).maps = s.maps := rfl
@[simp] theorem issueWrite_inputs (es : List (Byte × Byte)) : (issueWrite s es).inputs = s.inputs := rfl
@[simp] theorem issueWrite_readData (es : List (Byte × Byte)) : (issueWrite s es).readData = s.readData := rfl

/-! ### dropAnswer -/

@[simp] theorem dropAnswer_clock : (dropAnswer s).clock = s.clock := rfl
@[simp] theorem dropAnswer_status : (dropAnswer s).status = s.status := rfl
@[simp] theorem dropAnswer_regs : (dropAnswer s).regs = s.regs := rfl
@[simp] theorem dropAnswer_imgDiv : (dropAnswer s).imgDiv = s.imgDiv := rfl
@[simp] theorem dropAnswer_imgXo : (dropAnswer s).imgXo = s.imgXo := rfl
@[simp] theorem dropAnswer_bulk : (dropAnswer s).bulk = s.bulk := rfl
@[simp] theorem dropAnswer_latch :
    (dropAnswer s).hidden.latch = s.hidden.latch := rfl
@[simp] theorem dropAnswer_solution :
    (dropAnswer s).hidden.solution = s.hidden.solution := rfl
@[simp] theorem dropAnswer_solutionMode :
    (dropAnswer s).hidden.solutionMode = s.hidden.solutionMode := rfl
@[simp] theorem dropAnswer_cpCode :
    (dropAnswer s).hidden.cpCode = s.hidden.cpCode := rfl
@[simp] theorem dropAnswer_oeRead :
    (dropAnswer s).hidden.oeRead = s.hidden.oeRead := rfl
@[simp] theorem dropAnswer_vselRead :
    (dropAnswer s).hidden.vselRead = s.hidden.vselRead := rfl
@[simp] theorem dropAnswer_snap :
    (dropAnswer s).hidden.snap = s.hidden.snap := rfl
@[simp] theorem dropAnswer_pending :
    (dropAnswer s).hidden.pending = none := rfl
@[simp] theorem dropAnswer_wrote :
    (dropAnswer s).hidden.wrote = s.hidden.wrote := rfl
@[simp] theorem dropAnswer_maps : (dropAnswer s).maps = s.maps := rfl
@[simp] theorem dropAnswer_inputs : (dropAnswer s).inputs = s.inputs.tail := rfl
@[simp] theorem dropAnswer_readData : (dropAnswer s).readData = s.readData := rfl

end updates

end Sys2Proof.Machine
end

