-- ==== Sys2Proof/Laws/Memory.lean ====
section
/-! SUPPORT. The 256-byte buffers: every write keeps the canonical form, and what a read gives after a
write. -/

namespace Sys2Proof.Machine

open Sys2Proof

/-- A canonical buffer from a higher address on is canonical from a lower one on. -/
theorem canonicalFrom_mono {lo hi : Nat} (h : lo ≤ hi) {m : Memory}
    (hm : canonicalFrom hi m = true) : canonicalFrom lo m = true := by
  cases m with
  | nil => rfl
  | cons c rest =>
    obtain ⟨k, b⟩ := c
    simp only [canonicalFrom, Bool.and_eq_true, decide_eq_true_eq] at hm ⊢
    exact ⟨⟨⟨by omega, hm.1.1.2⟩, hm.1.2⟩, hm.2⟩

/-- Below a canonical buffer's first address nothing is listed. -/
theorem readByte_below {lo : Nat} {m : Memory} (hm : canonicalFrom lo m = true) {a : Byte}
    (ha : a.toNat < lo) : readByte m a = unlistedByte := by
  induction m generalizing lo with
  | nil => rfl
  | cons c rest ih =>
    obtain ⟨k, b⟩ := c
    simp only [canonicalFrom, Bool.and_eq_true, decide_eq_true_eq] at hm
    have hk : k ≠ a.toNat := by omega
    simp only [readByte, hk, if_false]
    exact ih hm.2 (by omega)

/-- A write keeps the canonical form. -/
theorem canonicalFrom_writeByte {lo : Nat} {m : Memory} (hm : canonicalFrom lo m = true) (a v : Byte)
    (ha : lo ≤ a.toNat) : canonicalFrom lo (writeByte m a v) = true := by
  have h256 : a.toNat < 256 := a.isLt
  induction m generalizing lo with
  | nil =>
    simp only [writeByte]
    split
    · rfl
    · rename_i hv
      simp [canonicalFrom, ha, h256, hv]
  | cons c rest ih =>
    obtain ⟨k, b⟩ := c
    have hm' := hm
    simp only [canonicalFrom, Bool.and_eq_true, decide_eq_true_eq, bne_iff_ne] at hm'
    obtain ⟨⟨⟨hlo, hk⟩, hb⟩, hr⟩ := hm'
    simp only [writeByte]
    split
    · rename_i hlt
      split
      · exact hm
      · rename_i hv
        simp only [canonicalFrom, Bool.and_eq_true, decide_eq_true_eq, bne_iff_ne]
        exact ⟨⟨⟨ha, h256⟩, hv⟩, ⟨⟨by omega, hk⟩, hb⟩, hr⟩
    · split
      · split
        · exact canonicalFrom_mono (by omega) hr
        · rename_i hv
          simp only [canonicalFrom, Bool.and_eq_true, decide_eq_true_eq, bne_iff_ne]
          exact ⟨⟨⟨hlo, hk⟩, hv⟩, hr⟩
      · simp only [canonicalFrom, Bool.and_eq_true, decide_eq_true_eq, bne_iff_ne]
        exact ⟨⟨⟨hlo, hk⟩, hb⟩, ih hr (by omega)⟩

/-- A write keeps the canonical form of the whole buffer. -/
theorem wf_writeByte {m : Memory} (hm : Memory.wf m = true) (a v : Byte) :
    Memory.wf (writeByte m a v) = true :=
  canonicalFrom_writeByte hm a v (Nat.zero_le _)

/-- A host write of a BULK word keeps the canonical form. -/
theorem wf_writeBulkWord {m : Memory} (hm : Memory.wf m = true) (k : Nat) (w : Word) :
    Memory.wf (writeBulkWord m k w) = true :=
  wf_writeByte (wf_writeByte (wf_writeByte (wf_writeByte hm _ _) _ _) _ _) _ _

/-- In a canonical buffer, a read after a write gives the byte written at its address and the old byte at
every other. -/
theorem readByte_writeByte_from {lo : Nat} {m : Memory} (hm : canonicalFrom lo m = true)
    (a v i : Byte) : readByte (writeByte m a v) i = if i = a then v else readByte m i := by
  have hne : ∀ {i : Byte}, i ≠ a → a.toNat ≠ i.toNat := fun h e =>
    h (BitVec.eq_of_toNat_eq e.symm)
  induction m generalizing lo with
  | nil =>
    by_cases hi : i = a
    · subst hi; simp only [writeByte]; split <;> simp_all [readByte]
    · simp only [writeByte]; split <;> simp [readByte, hne hi]
  | cons c rest ih =>
    obtain ⟨k, b⟩ := c
    have hm' := hm
    simp only [canonicalFrom, Bool.and_eq_true, decide_eq_true_eq] at hm'
    obtain ⟨⟨⟨hlo, hk⟩, hb⟩, hr⟩ := hm'
    have hbelow : ∀ {j : Byte}, j.toNat < k → readByte rest j = unlistedByte := fun h =>
      readByte_below hr (by omega)
    have heq : a.toNat = k → readByte rest a = unlistedByte := fun h => readByte_below hr (by omega)
    by_cases hi : i = a
    · subst hi
      simp only [writeByte]
      split
      · rename_i hlt
        split
        · rename_i hv
          have : k ≠ i.toNat := by omega
          simp [readByte, this, hv, hbelow hlt]
        · simp [readByte]
      · split
        · rename_i hak
          split
          · rename_i hv; simp [heq hak, hv]
          · simp [readByte, hak]
        · rename_i hak
          have : k ≠ i.toNat := fun e => hak e.symm
          simp only [readByte, this, if_false, ih hr]
    · simp only [writeByte]
      split
      · split
        · simp
        · simp [readByte, hne hi]
      · split
        · rename_i hak
          have : k ≠ i.toNat := by rw [← hak]; exact hne hi
          split <;> simp [readByte, this]
        · simp only [readByte, ih hr]
          split <;> simp

/-- A read after a write. -/
theorem readByte_writeByte {m : Memory} (hm : Memory.wf m = true) (a v i : Byte) :
    readByte (writeByte m a v) i = if i = a then v else readByte m i :=
  readByte_writeByte_from hm a v i

/-- After reset nothing is listed, and every byte reads 0. -/
theorem readByte_nil (a : Byte) : readByte [] a = 0 := rfl

end Sys2Proof.Machine
end

