-- ==== Sys2Proof/Laws/Ops.lean ====
section
/-! SUPPORT. Everything the shared operations can do, said once: the first execution step, the answers of
the port, one controller step of a port command, and a host write to CMD. -/

namespace Sys2Proof.Machine

open Sys2Proof

theorem nextAnswer_port {s : State} {r : PortAnswer} {rest : List Event}
    (h : s.inputs = .port r :: rest) : nextAnswer s = some r := by
  simp [nextAnswer, h]

/-- The port's answer is next exactly when the next move is the port's. -/
theorem nextAnswer_eq_some {s : State} {r : PortAnswer} :
    nextAnswer s = some r ↔ ∃ rest, s.inputs = .port r :: rest := by
  unfold nextAnswer
  split <;> simp_all

/-- Without a pending ABORT the first step runs the command's rule. -/
theorem firstStep_runs {body : State → State} {s : State} (h : s.status.abortPending = false) :
    firstStep body s = body s := by
  simp [firstStep, h]

/-- A pending ABORT ends the command at its first step (44_sequencer.md R223). -/
theorem firstStep_aborts {body : State → State} {s : State} (h : s.status.abortPending = true) :
    firstStep body s = finish s .aborted := by
  simp [firstStep, h]

/-- Everything one controller step of a port command can do (44_sequencer.md R202). -/
inductive PortStep (first : State → State) (afterRead : State → XoImage → State)
    (afterWrite : State → State) (s : State) : State → Prop
  | firstAborted (hp : s.hidden.pending = none) (ha : s.status.abortPending = true) :
      PortStep first afterRead afterWrite s (finish s .aborted)
  | firstRuns (hp : s.hidden.pending = none) (ha : s.status.abortPending = false) :
      PortStep first afterRead afterWrite s (first s)
  | waits (hp : s.hidden.pending.isSome = true) (hn : nextAnswer s = none) :
      PortStep first afterRead afterWrite s s
  | readFails (a : Byte) (n : Nat) (c : Byte) (rest : List Event)
      (hp : s.hidden.pending = some (.read a n)) (hi : s.inputs = .port (.fail c) :: rest) :
      PortStep first afterRead afterWrite s
        (finish (setFsm (setPortErr (dropAnswer s) c) .failed) .transportFailure)
  | readAborted (a : Byte) (n : Nat) (d : XoImage) (rest : List Event)
      (hp : s.hidden.pending = some (.read a n)) (hi : s.inputs = .port (.ok d) :: rest)
      (ha : s.status.abortPending = true) :
      PortStep first afterRead afterWrite s (finish (setFsm (dropAnswer s) .idle) .aborted)
  | readOk (a : Byte) (n : Nat) (d : XoImage) (rest : List Event)
      (hp : s.hidden.pending = some (.read a n)) (hi : s.inputs = .port (.ok d) :: rest)
      (ha : s.status.abortPending = false) :
      PortStep first afterRead afterWrite s (afterRead (dropAnswer s) d)
  | writeFails (es : List (Byte × Byte)) (c : Byte) (rest : List Event)
      (hp : s.hidden.pending = some (.write es)) (hi : s.inputs = .port (.fail c) :: rest) :
      PortStep first afterRead afterWrite s
        (finish (setFsm (setChipUndef (setPortErr (dropAnswer s) c) true) .failed)
          .transportFailure)
  | writeOk (es : List (Byte × Byte)) (d : XoImage) (rest : List Event)
      (hp : s.hidden.pending = some (.write es)) (hi : s.inputs = .port (.ok d) :: rest) :
      PortStep first afterRead afterWrite s (afterWrite (countWrite (dropAnswer s)))

/-- One controller step of a port command is one of those. -/
theorem runPort_portStep (first : State → State) (afterRead : State → XoImage → State)
    (afterWrite : State → State) (s : State) :
    PortStep first afterRead afterWrite s (runPort first afterRead afterWrite s) := by
  unfold runPort
  split
  · rename_i hp
    cases ha : s.status.abortPending
    · rw [firstStep_runs ha]; exact .firstRuns hp ha
    · rw [firstStep_aborts ha]; exact .firstAborted hp ha
  · rename_i a n hp
    unfold onReadAnswer
    split
    · rename_i hn; exact .waits (by simp [hp]) hn
    · rename_i c hn
      obtain ⟨rest, hi⟩ := nextAnswer_eq_some.1 hn
      exact .readFails a n c rest hp hi
    · rename_i d hn
      obtain ⟨rest, hi⟩ := nextAnswer_eq_some.1 hn
      cases ha : s.status.abortPending
      · exact .readOk a n d rest hp hi ha
      · exact .readAborted a n d rest hp hi ha
  · rename_i es hp
    unfold onWriteAnswer
    split
    · rename_i hn; exact .waits (by simp [hp]) hn
    · rename_i c hn
      obtain ⟨rest, hi⟩ := nextAnswer_eq_some.1 hn
      exact .writeFails es c rest hp hi
    · rename_i d hn
      obtain ⟨rest, hi⟩ := nextAnswer_eq_some.1 hn
      exact .writeOk es d rest hp hi

/-- A port command at its first step with no pending ABORT. -/
theorem runPort_first {f : State → State} {r : State → XoImage → State} {w : State → State}
    {s : State} (hp : s.hidden.pending = none) (ha : s.status.abortPending = false) :
    runPort f r w s = f s := by
  simp [runPort, hp, firstStep_runs ha]

/-- A port command whose read is answered with Ok, with no pending ABORT. -/
theorem runPort_readOk {f : State → State} {r : State → XoImage → State} {w : State → State}
    {s : State} {a : Byte} {n : Nat} {d : XoImage} {rest : List Event}
    (hp : s.hidden.pending = some (.read a n)) (hi : s.inputs = .port (.ok d) :: rest)
    (ha : s.status.abortPending = false) : runPort f r w s = r (dropAnswer s) d := by
  simp [runPort, hp, onReadAnswer, nextAnswer_port hi, ha]

/-- A port command whose write is answered with Ok. -/
theorem runPort_writeOk {f : State → State} {r : State → XoImage → State} {w : State → State}
    {s : State} {es : List (Byte × Byte)} {d : XoImage} {rest : List Event}
    (hp : s.hidden.pending = some (.write es)) (hi : s.inputs = .port (.ok d) :: rest) :
    runPort f r w s = w (countWrite (dropAnswer s)) := by
  simp [runPort, hp, onWriteAnswer, nextAnswer_port hi]

/-- Everything a host write to CMD can do (44_sequencer.md R200, R201, R223). -/
theorem commandWrite_cases (s : State) (w : Word) :
    (s.status.busy = false ∧ commandWrite s w = accept s w) ∨
    (s.status.busy = true ∧ w = encode .abort ∧ s.status.abortPending = true ∧
      commandWrite s w = s) ∨
    (s.status.busy = true ∧ w = encode .abort ∧ s.status.abortPending = false ∧
      s.hidden.wrote = false ∧ commandWrite s w = setAbortPending s true) ∨
    (s.status.busy = true ∧ commandWrite s w = setDropped s true) := by
  unfold commandWrite
  split
  · rename_i h; exact .inl ⟨h, rfl⟩
  · rename_i hb
    have hb : s.status.busy = true := by simpa using hb
    split
    · rename_i hw
      split
      · rename_i ha; exact .inr (.inl ⟨hb, hw, ha, rfl⟩)
      · rename_i ha
        split
        · rename_i hwr
          exact .inr (.inr (.inl ⟨hb, hw, by simpa using ha, hwr, rfl⟩))
        · exact .inr (.inr (.inr ⟨hb, rfl⟩))
    · exact .inr (.inr (.inr ⟨hb, rfl⟩))

end Sys2Proof.Machine
end

