-- ==== Sys2Proof/Laws/PerInstr.lean ====
section
/-! SUPPORT. One lemma per command about its assembled word (30_encoding.md R91, R93, R98): the word holds
the command's opcode, the command's row is in the table, and the word selects that row. -/

namespace Sys2Proof.Laws

open Sys2Proof

/-- The assembled word of a command holds its opcode and selects its row of the opcode table. -/
def RowSelected.Statement (i : Instr) : Prop :=
  opField (encode i) = opcode i ∧ rowOf i ∈ opcodeRows ∧ (rowOf i).selects (encode i) = true

/-- A word with F3 = 0 selects the row of its opcode in formats U and X. -/
theorem selects_f3Zero (op f1 f2 : Byte) :
    Row.selects ⟨0xFF0000FF, op.setWidth 32⟩ (wordOfFields op f1 f2 0) = true := by
  rw [Row.selects, beq_iff_eq]
  apply BitVec.eq_of_getLsbD_eq
  intro j hj
  simp only [wordOfFields, BitVec.getLsbD_and, BitVec.getLsbD_setWidth, BitVec.getLsbD_append]
  interval_cases j <;> simp

/-- A word selects the row of its opcode in format B. -/
theorem selects_opcode (op f1 f2 f3 : Byte) :
    Row.selects ⟨0x000000FF, op.setWidth 32⟩ (wordOfFields op f1 f2 f3) = true := by
  rw [Row.selects, beq_iff_eq]
  apply BitVec.eq_of_getLsbD_eq
  intro j hj
  simp only [wordOfFields, BitVec.getLsbD_and, BitVec.getLsbD_setWidth, BitVec.getLsbD_append]
  interval_cases j <;> simp

theorem RowSelected.init : RowSelected.Statement .init := by
  unfold RowSelected.Statement; decide

theorem RowSelected.setRate : RowSelected.Statement .setRate := by
  unfold RowSelected.Statement; decide

theorem RowSelected.getRate : RowSelected.Statement .getRate := by
  unfold RowSelected.Statement; decide

theorem RowSelected.roundRate : RowSelected.Statement .roundRate := by
  unfold RowSelected.Statement; decide

theorem RowSelected.bulkLoad : RowSelected.Statement .bulkLoad := by
  unfold RowSelected.Statement; decide

theorem RowSelected.setXoUser (oe vs : Byte) :
    RowSelected.Statement (.setXoUser oe vs) :=
  ⟨opField_wordOfFields _ _ _ _, by simp [rowOf, opcodeRows], selects_f3Zero 0x06 oe vs⟩

theorem RowSelected.setXoTrim : RowSelected.Statement .setXoTrim := by
  unfold RowSelected.Statement; decide

theorem RowSelected.abort : RowSelected.Statement .abort := by
  unfold RowSelected.Statement; decide

theorem RowSelected.pack (mask byte value : Byte) :
    RowSelected.Statement (.pack mask byte value) :=
  ⟨opField_wordOfFields _ _ _ _, by simp [rowOf, opcodeRows], selects_opcode 0x10 mask byte value⟩

theorem RowSelected.unpack (mask byte : Byte) :
    RowSelected.Statement (.unpack mask byte) :=
  ⟨opField_wordOfFields _ _ _ _, by simp [rowOf, opcodeRows], selects_f3Zero 0x11 mask byte⟩

theorem RowSelected.solve : RowSelected.Statement .solve := by
  unfold RowSelected.Statement; decide

theorem RowSelected.selectCp : RowSelected.Statement .selectCp := by
  unfold RowSelected.Statement; decide

theorem RowSelected.xoLookup : RowSelected.Statement .xoLookup := by
  unfold RowSelected.Statement; decide

theorem RowSelected.classify : RowSelected.Statement .classify := by
  unfold RowSelected.Statement; decide

end Sys2Proof.Laws
end

