-- ==== Sys2Proof/Laws/Port.lean ====
section
/-! SUPPORT. What each part of a port command can do, said once (44_sequencer.md R203 to R222): its first
execution step ends or issues its first transaction after its checks; the code after its read encodes the
image and issues the write; the code after its write goes on or ends. -/

namespace Sys2Proof.Machine

open Sys2Proof

/-- The divider block of a read, byte by byte (R64). -/
theorem divBlock_eq (d : XoImage) :
    divBlock d = (#v[d[0], d[1], d[2], d[3], d[4], d[5]] : Vector Byte 6) := by
  apply Vector.ext
  intro i hi
  have h : i < 6 := hi
  interval_cases i <;> simp [divBlock]

/-- The addresses of the bulk write (R64). -/
theorem bulkEntries_addresses (snap : Memory) :
    (bulkEntries snap).map Prod.fst = blockAddresses 0 config.bulkLen := by
  simp [bulkEntries, blockAddresses]

/-- The entries of a divider image write (R62). -/
theorem imageEntries_div (img : DivImage) : imageEntries config.divBase img.toList =
    [((0x10 : Byte), img[0]), (0x11, img[1]), (0x12, img[2]), (0x13, img[3]), (0x14, img[4]),
      (0x15, img[5])] := by
  have h : img.toList = [img[0], img[1], img[2], img[3], img[4], img[5]] := by
    apply List.ext_getElem
    · simp
    · intro i h1 h2
      simp only [Vector.getElem_toList]
      rw [Vector.length_toList] at h1
      interval_cases i <;> rfl
  rw [h]
  rfl

/-- The entries of an XO image write (R62). -/
theorem imageEntries_xo (img : XoImage) : imageEntries config.xoBase img.toList =
    [((0x50 : Byte), img[0]), (0x51, img[1]), (0x52, img[2]), (0x53, img[3]), (0x54, img[4]),
      (0x55, img[5]), (0x56, img[6]), (0x57, img[7])] := by
  have h : img.toList =
      [img[0], img[1], img[2], img[3], img[4], img[5], img[6], img[7]] := by
    apply List.ext_getElem
    · simp
    · intro i h1 h2
      simp only [Vector.getElem_toList]
      rw [Vector.length_toList] at h1
      interval_cases i <;> rfl
  rw [h]
  rfl

/-- INIT's first step (R203). -/
theorem initFirst_cases (s : State) :
    (∃ e, initFirst s = finish s e ∧ e ≠ .none) ∨
    (s.status.initialized = false ∧
      (config.partMinHz ≤ argA1 s ∧ argA1 s ≤ argA2 s ∧ argA2 s ≤ config.partMaxHz) ∧
      (argA3 s ≠ 0 → argA1 s ≤ argA3 s ∧ argA3 s ≤ argA2 s) ∧
      (∃ t, xoTrimOf (argA0 s) = some t ∧ trimFits s.maps.xo t = true) ∧
      initFirst s = issueRead (setFsm s .computing) config.xoBase config.xoLen) := by
  unfold initFirst
  split
  · exact .inl ⟨_, rfl, by decide⟩
  · rename_i hi
    split
    · exact .inl ⟨_, rfl, by decide⟩
    · rename_i hb
      split
      · exact .inl ⟨_, rfl, by decide⟩
      · rename_i t ht
        split
        · exact .inl ⟨_, rfl, by decide⟩
        · rename_i h3
          split
          · rename_i hf
            exact .inr ⟨by simpa using hi, Decidable.not_not.1 hb,
              fun h => Decidable.not_not.1 fun h' => h3 ⟨h, h'⟩, ⟨t, ht, hf⟩, rfl⟩
          · exact .inl ⟨_, rfl, by decide⟩

/-- SET_RATE's first step (R206 to R209). -/
theorem setRateFirst_cases (s : State) :
    (∃ e, setRateFirst s = finish s e ∧ e ≠ .none) ∨
    (∃ c, setRateFirst s =
      finish (setFsm (setFsm (setClass s c) .computing) .failed) .noDividerSolution) ∨
    (s.status.initialized = true ∧ s.clock.minHz.toNat ≤ argA0 s ∧
      argA0 s ≤ s.clock.maxHz.toNat ∧
      ∃ c r mode,
        solveDividers (argA0 s) s.clock.referenceHz.toNat s.clock.xo.doublerDisabled =
          some (r, mode) ∧
        setRateFirst s =
          issueRead (setSolution (setFsm (setClass s c) .computing) r mode
            (selectChargePump r.vcoHz.toNat)) config.divBase config.divLen) := by
  unfold setRateFirst
  split
  · exact .inl ⟨_, rfl, by decide⟩
  · rename_i hi
    split
    · exact .inl ⟨_, rfl, by decide⟩
    · rename_i hr
      dsimp only
      split
      · exact .inr (.inl ⟨_, rfl⟩)
      · rename_i r mode hs
        exact .inr (.inr ⟨by simpa using hi, by omega, by omega, _, r, mode, hs, rfl⟩)

/-- SET_XO_USER's first step (R220). -/
theorem setXoUserFirst_cases (oe vs : Byte) (s : State) :
    (∃ e, setXoUserFirst oe vs s = finish s e ∧ e ≠ .none) ∨
    (s.status.initialized = true ∧ userFits s.maps.xo oe vs = true ∧
      setXoUserFirst oe vs s = issueRead (setFsm s .computing) config.xoBase config.xoLen) := by
  unfold setXoUserFirst
  split
  · exact .inl ⟨_, rfl, by decide⟩
  · rename_i hi
    split
    · rename_i hf; exact .inr ⟨by simpa using hi, hf, rfl⟩
    · exact .inl ⟨_, rfl, by decide⟩

/-- SET_XO_TRIM's first step (R222). -/
theorem setXoTrimFirst_cases (s : State) :
    (∃ e, setXoTrimFirst s = finish s e ∧ e ≠ .none) ∨
    (s.status.initialized = true ∧ xoReserved s.hidden.latch.a0 = 0 ∧
      trimFits s.maps.xo (trimOperand s) = true ∧
      setXoTrimFirst s = issueRead (setFsm s .computing) config.xoBase config.xoLen) := by
  unfold setXoTrimFirst
  split
  · exact .inl ⟨_, rfl, by decide⟩
  · rename_i hi
    split
    · exact .inl ⟨_, rfl, by decide⟩
    · rename_i hr
      split
      · rename_i hf
        exact .inr ⟨by simpa using hi, Decidable.not_not.1 hr, hf, rfl⟩
      · exact .inl ⟨_, rfl, by decide⟩

/-- BULK_LOAD's first step (R216). -/
theorem bulkLoadFirst_cases (s : State) :
    (s.status.initialized = true ∧ bulkLoadFirst s = finish s .illegalState) ∨
    (s.status.initialized = false ∧
      bulkLoadFirst s = issueWrite (setFsm s .writing) (bulkEntries s.hidden.snap)) := by
  unfold bulkLoadFirst
  split
  · rename_i h; exact .inl ⟨h, rfl⟩
  · rename_i h; exact .inr ⟨by simpa using h, rfl⟩

/-- INIT after its read, once the trim of its reference fits (R203). -/
theorem initAfterRead_writes {s : State} (hm : xoMapOk s.maps.xo = true) (data : XoImage)
    {t : XoSettings} (ht : xoTrimOf (argA0 s) = some t) (hf : trimFits s.maps.xo t = true) :
    ∃ img, encodeXoTrim s.maps.xo data t = .ok img ∧ initAfterRead s data =
      issueWrite (setFsm (setImgXo (setUserRead s (decodeXoUser s.maps.xo data).1
        (decodeXoUser s.maps.xo data).2) img) .writing) (imageEntries config.xoBase img.toList) := by
  obtain ⟨img, hi⟩ := encodeXoTrim_ok hm data hf
  exact ⟨img, hi, by simp [initAfterRead, ht, writeXoImage, hi]⟩

/-- SET_RATE after its read (R210, R134). -/
theorem setRateAfterRead_writes {s : State} (hm : divMapOk s.maps.div = true)
    (data : XoImage) :
    ∃ img, encodeDiv s.maps.div (divBlock data) s.hidden.solution s.hidden.cpCode = .ok img ∧
      setRateAfterRead s data =
        issueWrite (setFsm (setImgDiv s img) .writing)
          (imageEntries config.divBase img.toList) := by
  obtain ⟨img, hi⟩ := encodeDiv_ok hm (divBlock data) s.hidden.solution s.hidden.cpCode
  exact ⟨img, hi, by simp [setRateAfterRead, hi]⟩

/-- SET_XO_USER after its read, once both values fit (R220). -/
theorem setXoUserAfterRead_writes {s : State} (hm : xoMapOk s.maps.xo = true)
    (data : XoImage) {oe vs : Byte} (hf : userFits s.maps.xo oe vs = true) :
    ∃ img, encodeXoUser s.maps.xo data oe vs = .ok img ∧ setXoUserAfterRead oe vs s data =
      issueWrite (setFsm (setImgXo s img) .writing) (imageEntries config.xoBase img.toList) := by
  obtain ⟨img, hi⟩ := encodeXoUser_ok hm data hf
  exact ⟨img, hi, by simp [setXoUserAfterRead, writeXoImage, hi]⟩

/-- SET_XO_TRIM after its read, once every value fits (R222). -/
theorem setXoTrimAfterRead_writes {s : State} (hm : xoMapOk s.maps.xo = true)
    (data : XoImage) (hf : trimFits s.maps.xo (trimOperand s) = true) :
    ∃ img, encodeXoTrim s.maps.xo data (trimOperand s) = .ok img ∧ setXoTrimAfterRead s data =
      issueWrite (setFsm (setImgXo s img) .writing) (imageEntries config.xoBase img.toList) := by
  obtain ⟨img, hi⟩ := encodeXoTrim_ok hm data hf
  exact ⟨img, hi, by simp [setXoTrimAfterRead, writeXoImage, hi]⟩

/-- SET_RATE after a counted write (R211 to R213): the next of its seven one-entry writes, or the
commit. -/
theorem setRateAfterWrite_cases (s : State) :
    (s.status.step.toNat - 1 < 7 ∧ ∃ e ∈ commitWrites s.status.cls,
      setRateAfterWrite s = issueWrite (setFsm s .committing) [e]) ∨
    (7 ≤ s.status.step.toNat - 1 ∧ setRateAfterWrite s = succeed (commitRate s)) := by
  have hl : (commitWrites s.status.cls).length = 7 := by cases s.status.cls <;> rfl
  unfold setRateAfterWrite
  split
  · rename_i e he
    obtain ⟨hlt, _⟩ := List.getElem?_eq_some_iff.1 he
    exact .inl ⟨by omega, e, List.mem_of_getElem? he, rfl⟩
  · rename_i he
    rw [List.getElem?_eq_none_iff] at he
    exact .inr ⟨by omega, rfl⟩

end Sys2Proof.Machine
end

