-- ==== Sys2Proof/Laws/Pure.lean ====
section
/-! SUPPORT. What the commands that issue no transaction can do, said once, and the tables of
42_charge_pump.md, 43_xo_trim.md and 44_sequencer.md R205 with THW's constants written out. -/

namespace Sys2Proof.Machine

open Sys2Proof

/-- SelectCP with its breakpoints written out (42_charge_pump.md R170). -/
theorem selectChargePump_eq (vco : Nat) : selectChargePump vco =
    if vco < 7000000000 then 5 else if vco < 7400000000 then 4
    else if vco < 7800000000 then 3 else 2 := rfl

/-- A charge-pump code is 2 to 5. -/
theorem selectChargePump_range (vco : Nat) :
    2 ≤ (selectChargePump vco).toNat ∧ (selectChargePump vco).toNat ≤ 5 := by
  unfold selectChargePump
  split_ifs <;> decide

/-- The bounds of a DividerSet written out (00_scope.md R6). -/
theorem dividerBounds_iff (r : DividerSet) : DividerBounds r ↔
    4 ≤ r.outputDivider.toNat ∧ r.outputDivider.toNat ≤ 511 ∧ 41 ≤ r.feedbackInt.toNat ∧
      r.feedbackInt.toNat ≤ 216 ∧ 6860000000 ≤ r.vcoHz.toNat ∧ r.vcoHz.toNat ≤ 8650000000 := Iff.rfl

/-- XoLookup with its bands written out (43_xo_trim.md R180). -/
theorem xoTrimOf_eq (ref : Nat) : xoTrimOf ref =
    if 40000000 ≤ ref ∧ ref ≤ 80000000 then some Config.xoBand1Tuple
    else if 100000000 ≤ ref ∧ ref < 140000000 then some Config.xoBand2Tuple
    else if 140000000 ≤ ref ∧ ref ≤ 166000000 then some Config.xoBand3Tuple
    else none := rfl

/-- Classify with its scale and threshold written out (44_sequencer.md R205). -/
theorem classifyChange_eq (new act : Nat) : classifyChange new act =
    if act = 0 then (2 ^ 32 - 1, .large)
    else (absDiff new act * 10000 / act,
      if absDiff new act * 10000 / act < 5 then .small else .large) := rfl

/-- pack fails with a code that is not NONE. -/
theorem pack_error {e m : Byte} {v : Nat} {c : ErrCode} (h : pack e v m = .error c) : c ≠ .none := by
  unfold pack at h
  split at h
  · cases h; decide
  · split at h
    · cases h
    · cases h; decide

/-- unpack fails with a code that is not NONE. -/
theorem unpack_error {b m : Byte} {c : ErrCode} (h : unpack b m = .error c) : c ≠ .none := by
  unfold unpack at h
  split at h
  · cases h; decide
  · cases h

/-- Everything a pure command can do: it fails and only STATUS changes, or it finishes NONE with the
result registers its rule lists (30_encoding.md R95). -/
theorem exec_pure {i : Instr} (hi : ¬ PortCommand i) {s t : State} (h : exec i s = .next t) :
    (∃ e, e ≠ .none ∧ t = finish s e) ∨
    (∃ r0 r1 r2 r3, t = finish { s with
        regs := { s.regs with res0 := r0, res1 := r1, res2 := r2, res3 := r3 } } .none ∧
      (i ≠ .solve → r2 = s.regs.res2 ∧ r3 = s.regs.res3) ∧
      (i ≠ .solve → i ≠ .classify → r1 = s.regs.res1) ∧ (i = .abort → r0 = s.regs.res0)) := by
  cases i <;> simp only [PortCommand, not_true_eq_false, not_false_eq_true] at hi <;>
    simp only [exec, execGetRate, execRoundRate, execAbort, execPack, execUnpack, execSolve,
      execSelectCp, execXoLookup, execClassify, Host.Outcome.next.injEq] at h <;>
    subst h <;> unfold firstStep
  all_goals (split; exact .inl ⟨_, by decide, rfl⟩)
  · unfold getRateRule
    split
    · exact .inr ⟨s.clock.actualHz, s.regs.res1, s.regs.res2, s.regs.res3, rfl, by simp⟩
    · exact .inl ⟨_, by decide, rfl⟩
  · exact .inr ⟨s.hidden.latch.a0, s.regs.res1, s.regs.res2, s.regs.res3, rfl, by simp⟩
  · exact .inr ⟨s.regs.res0, s.regs.res1, s.regs.res2, s.regs.res3, rfl, by simp⟩
  · unfold packRule
    split
    · rename_i e he; exact .inl ⟨e, pack_error he, rfl⟩
    · rename_i r _
      exact .inr ⟨r.setWidth 32, s.regs.res1, s.regs.res2, s.regs.res3, rfl, by simp⟩
  · unfold unpackRule
    split
    · rename_i e he; exact .inl ⟨e, unpack_error he, rfl⟩
    · rename_i v _
      exact .inr ⟨BitVec.ofNat 32 v, s.regs.res1, s.regs.res2, s.regs.res3, rfl, by simp⟩
  · unfold solveRule
    split
    · exact .inl ⟨_, by decide, rfl⟩
    · split
      · exact .inl ⟨_, by decide, rfl⟩
      · rename_i r m _
        exact .inr ⟨divNoWord r, solveFracWord r m, vcoLoWord r, vcoHiWord r, rfl, by simp⟩
  · exact .inr ⟨(selectChargePump (argVco s)).setWidth 32, s.regs.res1, s.regs.res2, s.regs.res3,
      rfl, by simp⟩
  · unfold xoLookupRule
    split
    · exact .inl ⟨_, by decide, rfl⟩
    · rename_i t _
      exact .inr ⟨xoWord t, s.regs.res1, s.regs.res2, s.regs.res3, rfl, by simp⟩
  · exact .inr ⟨_, _, s.regs.res2, s.regs.res3, by unfold classifyRule setRes0 setRes1; rfl,
      by simp⟩

end Sys2Proof.Machine
end

