-- ==== Sys2Proof/Laws/Solver.lean ====
section
/-! SUPPORT. The divider solver with THW's constants written out (00_scope.md R6): one iteration of the
search, the bounds check, and what a candidate that passes it holds (41_divider_solver.md R143, R146). -/

namespace Sys2Proof.Machine

open Sys2Proof

/-- The initial guess (R142). -/
theorem firstDivider_eq (req : Nat) : firstDivider req = 1 + 6860000000 / req := rfl

/-- Solve by how its search ends (R143). -/
theorem solveDividers_eq (req ref : Nat) (dd : Bool) : solveDividers req ref dd =
    match search req (pfdOf ref dd) (511 - firstDivider req) (firstDivider req) with
    | .stall => none
    | .exact od n vco => checkSolution od n 0 vco .integer
    | .exhausted => fallback req (pfdOf ref dd) := rfl

/-- One iteration of the search (R143). -/
theorem search_succ (req pfd fuel od : Nat) : search req pfd (fuel + 1) od =
    if od < 511 then
      if req * od > 8650000000 then .exhausted
      else if req * od / pfd < 41 then .stall
      else if req * od / pfd > 216 then .exhausted
      else if req * od % pfd = 0 then .exact od (req * od / pfd) (req * od)
      else search req pfd fuel (od + 1)
    else .exhausted := rfl

/-- The bounds check of a candidate. -/
theorem checkSolution_eq (od n frac vco : Nat) (mode : SolveMode) : checkSolution od n frac vco mode =
    if 4 ≤ od ∧ od ≤ 511 ∧ 41 ≤ n ∧ n ≤ 216 ∧ frac < 16777216 ∧ 6860000000 ≤ vco ∧
        vco ≤ 8650000000 then
      some ({ outputDivider := BitVec.ofNat 9 od, feedbackInt := BitVec.ofNat 9 n,
              feedbackFrac := BitVec.ofNat 24 frac, vcoHz := BitVec.ofNat 64 vco }, mode)
    else none := rfl

/-- A candidate that passes its check: its numbers, each held exactly, and the bounds. -/
theorem checkSolution_some {od n frac vco : Nat} {mode m : SolveMode} {r : DividerSet}
    (h : checkSolution od n frac vco mode = some (r, m)) :
    m = mode ∧ r.outputDivider.toNat = od ∧ r.feedbackInt.toNat = n ∧ r.feedbackFrac.toNat = frac ∧
      r.vcoHz.toNat = vco ∧ 4 ≤ od ∧ od ≤ 511 ∧ 41 ≤ n ∧ n ≤ 216 ∧ 6860000000 ≤ vco ∧
      vco ≤ 8650000000 := by
  rw [checkSolution_eq] at h
  by_cases hc : 4 ≤ od ∧ od ≤ 511 ∧ 41 ≤ n ∧ n ≤ 216 ∧ frac < 16777216 ∧ 6860000000 ≤ vco ∧
      vco ≤ 8650000000
  · rw [if_pos hc] at h
    cases h
    refine ⟨rfl, ?_⟩
    simp only [BitVec.toNat_ofNat]
    omega
  · rw [if_neg hc] at h
    cases h

/-- The truncated fractional part (R146). -/
theorem truncatedFrac_eq (vco pfd : Nat) : truncatedFrac vco pfd = vco % pfd * 2 ^ 24 / pfd := by
  rw [truncatedFrac, Nat.shiftLeft_eq]

/-- The carried quotient (R146). -/
theorem carriedInt_eq (vco pfd : Nat) : carriedInt vco pfd =
    if (roundedFrac vco pfd * 10) >>> 24 ≥ 5 then vco / pfd + 1 else vco / pfd := rfl

end Sys2Proof.Machine
end

