-- ==== Sys2Proof/Laws/Step.lean ====
section
/-! SUPPORT. Everything a step can do, said once, and that every meaning answers a next state. -/

namespace Sys2Proof.Machine

open Sys2Proof

/-- Every meaning answers a next state: PLL-FSC takes no trap (60_exceptions.md R255). -/
theorem exec_next (i : Instr) (s : State) : ∃ t, exec i s = .next t := by
  cases i <;> exact ⟨_, rfl⟩

/-- Every controller step answers a next state. -/
theorem controllerStep_next (s : State) : ∃ t, controllerStep s = .next t := by
  unfold controllerStep
  split
  · exact ⟨_, rfl⟩
  · exact exec_next _ s

/-- Everything one step can do, but for refusing an ill-formed map. -/
inductive Move (s : State) : State → Prop
  /-- Nothing happens but that a move which has no effect is passed over. -/
  | idles (es : List Event) (he : es = s.inputs ∨ es = s.inputs.tail) : Move s (setInputs s es)
  /-- The host accesses a register. -/
  | host (a : HostAccess) (rest : List Event) (hi : s.inputs = .host a :: rest) :
      Move s (hostAccess (setInputs s rest) a)
  /-- The platform resets the controller. -/
  | resets (rest : List Event) (hi : s.inputs = .reset :: rest) :
      Move s (resetController (setInputs s rest))
  /-- An illegal word's first step. -/
  | illegal (es : List Event) (e : Reject) (hb : s.status.busy = true)
      (hd : decodeWord (latchedWord s) = .error e) : Move s (illegalStep (setInputs s es))
  /-- A command's first execution step. -/
  | firstStep (es : List Event) (i : Instr) (t : State) (hb : s.status.busy = true)
      (hp : s.hidden.pending = none) (hd : decodeWord (latchedWord s) = .ok i)
      (hx : exec i (setInputs s es) = .next t) : Move s t
  /-- The port answers the outstanding transaction of a command. -/
  | answered (r : PortAnswer) (rest : List Event) (i : Instr) (t : State)
      (hb : s.status.busy = true) (hp : s.hidden.pending.isSome = true)
      (hi : s.inputs = .port r :: rest) (hd : decodeWord (latchedWord s) = .ok i)
      (hx : exec i s = .next t) : Move s t

theorem setInputs_self (s : State) : setInputs s s.inputs = s := rfl

/-- The latched word is no input. -/
@[simp] theorem latchedWord_setInputs (s : State) (es : List Event) :
    latchedWord (setInputs s es) = latchedWord s := rfl

/-- A controller's move is one of `Move`'s. -/
theorem controllerMove_move {s t : State} (es : List Event)
    (he : es = s.inputs ∨ es = s.inputs.tail)
    (h : controllerMove (setInputs s es) = .next t) : Move s t := by
  unfold controllerMove at h
  split at h
  · rename_i hd
    simp only [firstStepDue, setInputs_status, setInputs_hidden, Bool.and_eq_true,
      Option.isNone_iff_eq_none] at hd
    unfold controllerStep at h
    rw [latchedWord_setInputs] at h
    split at h
    · rename_i e hdec; cases h; exact .illegal es e hd.1 hdec
    · rename_i i hdec; exact .firstStep es i t hd.1 hd.2 hdec h
  · cases h; exact .idles es he

/-- Everything a step that answers a next state can do. -/
theorem step_move {s t : State} (h : step s = .next t) : mapsOk s.maps = true ∧ Move s t := by
  unfold step stepOf at h
  split at h
  · rename_i hm
    refine ⟨hm, ?_⟩
    unfold takeMove at h
    split at h
    · exact controllerMove_move s.inputs (.inl rfl) h
    · rename_i rest hi
      exact controllerMove_move rest (.inr (by simp [hi])) h
    · rename_i a rest hi; cases h; exact .host a rest hi
    · rename_i rest hi; cases h; exact .resets rest hi
    · rename_i r rest hi
      split at h
      · rename_i hw
        simp only [awaitingPort, Bool.and_eq_true] at hw
        unfold controllerStep at h
        split at h
        · rename_i e hdec; cases h; exact .illegal s.inputs e hw.1 hdec
        · rename_i i hdec; exact .answered r rest i t hw.1 hw.2 hi hdec h
      · cases h; exact .idles rest (.inr (by simp [hi]))
  · cases h

/-- A step is refused exactly when a map is ill-formed, and never faults. -/
theorem step_refused {s : State} (h : mapsOk s.maps = false) :
    step s = .refused .illFormedFieldMap := by
  simp [step, stepOf, h]

end Sys2Proof.Machine
end

