-- ==== Sys2Proof/Tests/Slice0.lean ====
section
/-! SUPPORT. The model's own tests: every command's word, the ill-formed field maps, the vectors of
95_test_vectors.md on single steps, and for every obligation with hypotheses a witness that meets them.
Expected results are the spec's vectors or hand calculation from its rules. -/

namespace Sys2Proof.Tests

open Sys2Proof Sys2Proof.Machine

/-! ### Helper states -/

/-- The reset state with ARG0 to ARG3 written. -/
def withArgs (a0 a1 a2 a3 : Word) : State :=
  { State.reset with regs := { HostRegs.zero with arg0 := a0, arg1 := a1, arg2 := a2, arg3 := a3 } }

/-- The word w accepted with those operands, from reset. -/
def ready (w a0 a1 a2 a3 : Word) : State := accept (withArgs a0 a1 a2 a3) w

/-- What a successful INIT with a 60 MHz reference, bounds 16 MHz to 2.1 GHz and rate `act` leaves in
ClockState. -/
def clock60 (act : Word) : ClockState :=
  { ClockState.zero with
    referenceHz := 60000000, requestedHz := act, actualHz := act, minHz := 16000000,
    maxHz := 2100000000, xo := Config.xoBand1Tuple }

/-- An initialized machine with the word w accepted and operand a0, the rate being `act`. -/
def inited (act w a0 : Word) : State :=
  let s := ready w a0 0 0 0
  { s with clock := clock60 act, status := { s.status with initialized := true } }

/-- A state with a transaction outstanding and the port's answer next. -/
def answeredBy (s : State) (fsm : FsmState) (tx : Txn) (step : BitVec 4) (r : PortAnswer) : State :=
  { s with
    status := { s.status with fsm := fsm, step := step }
    hidden := { s.hidden with pending := some tx, wrote := (match tx with
      | .read _ _ => false
      | .write _ => true) }
    inputs := [.port r] }

/-- A block of eight zero bytes, answered with Ok. -/
def okZero : PortAnswer := .ok (Vector.replicate 8 0)

/-- What a meaning's next state gives for f. -/
def after {α : Type} (i : Instr) (s : State) (f : State → α) : Option α :=
  match exec i s with
  | .next t => some (f t)
  | .fault _ => none
  | .refused _ => none

/-- What a step's next state gives for f. -/
def afterStep {α : Type} (s : State) (f : State → α) : Option α :=
  match step s with
  | .next t => some (f t)
  | .fault _ => none
  | .refused _ => none

/-- ERR, RES0 and BUSY. -/
def errRes0 (t : State) : ErrCode × Word × Bool := (t.status.err, t.regs.res0, t.status.busy)

/-- The solver's answer as naturals. -/
def solved (req ref : Nat) (dd : Bool) : Option (Nat × Nat × Nat × Nat × SolveMode) :=
  (solveDividers req ref dd).map fun (r, m) =>
    (r.outputDivider.toNat, r.feedbackInt.toNat, r.feedbackFrac.toNat, r.vcoHz.toNat, m)

/-- A DividerSet from naturals. -/
def dividers (od n frac vco : Nat) : DividerSet :=
  { outputDivider := BitVec.ofNat 9 od, feedbackInt := BitVec.ofNat 9 n,
    feedbackFrac := BitVec.ofNat 24 frac, vcoHz := BitVec.ofNat 64 vco }

/-! ### Words, bit by bit: F3, F2, F1, OP (30_encoding.md R90, R91, R93) -/

theorem test_decode_init : decodeWord 0b00000000_00000000_00000000_00000001 = .ok .init := by decide
theorem test_decode_setRate : decodeWord 0b00000000_00000000_00000000_00000010 = .ok .setRate := by
  decide
theorem test_decode_getRate : decodeWord 0b00000000_00000000_00000000_00000011 = .ok .getRate := by
  decide
theorem test_decode_roundRate : decodeWord 0b00000000_00000000_00000000_00000100 = .ok .roundRate := by
  decide
theorem test_decode_bulkLoad : decodeWord 0b00000000_00000000_00000000_00000101 = .ok .bulkLoad := by
  decide
/-- F1 is OE, F2 is VS (R102). -/
theorem test_decode_setXoUser :
    decodeWord 0b00000000_00000010_00000001_00000110 = .ok (.setXoUser 1 2) := by decide
theorem test_decode_setXoTrim : decodeWord 0b00000000_00000000_00000000_00000111 = .ok .setXoTrim := by
  decide
theorem test_decode_abort : decodeWord 0b00000000_00000000_00000000_00001000 = .ok .abort := by decide
/-- F1 is MASK, F2 is BYTE, F3 is VALUE (R102). -/
theorem test_decode_pack :
    decodeWord 0b00000101_11100011_00011100_00010000 = .ok (.pack 0x1C 0xE3 5) := by decide
theorem test_decode_unpack :
    decodeWord 0b00000000_11110011_00011100_00010001 = .ok (.unpack 0x1C 0xF3) := by decide
theorem test_decode_solve : decodeWord 0b00000000_00000000_00000000_00010010 = .ok .solve := by decide
theorem test_decode_selectCp : decodeWord 0b00000000_00000000_00000000_00010011 = .ok .selectCp := by
  decide
theorem test_decode_xoLookup : decodeWord 0b00000000_00000000_00000000_00010100 = .ok .xoLookup := by
  decide
theorem test_decode_classify : decodeWord 0b00000000_00000000_00000000_00010101 = .ok .classify := by
  decide

/-- The edges of the unlisted opcodes (R97). -/
theorem test_decode_unknown : decodeWord 0x00000000 = .error .unknownOpcode ∧
    decodeWord 0x00000009 = .error .unknownOpcode ∧ decodeWord 0x0000000F = .error .unknownOpcode ∧
    decodeWord 0x00000016 = .error .unknownOpcode ∧
    decodeWord 0xFFFFFFFF = .error .unknownOpcode := by decide

/-- Fields that must be zero (R92, R97; the vectors of 95_test_vectors.md sections 2.1 and 2.7). -/
theorem test_decode_nonzero_field : decodeWord 0x00000102 = .error .nonzeroField ∧
    decodeWord 0x00000108 = .error .nonzeroField ∧ decodeWord 0x80000015 = .error .nonzeroField ∧
    decodeWord 0x01F31C11 = .error .nonzeroField ∧ decodeWord 0x01020106 = .error .nonzeroField := by
  decide

/-- A table word runs as the first command after reset: PACK 0x1C, 0xE3, 5 gives 0xF7. -/
theorem test_withFetchWord :
    decodeTableWord 32 0x05E31C10 = some (.pack 0x1C 0xE3 5) ∧
    afterStep (State.reset.withFetchWord 32 0x05E31C10) errRes0 = some (.none, 0xF7, false) := by
  decide

/-! ### Ill-formed field maps (40_bitfield_codec.md R127): one for each condition -/

/-- The table of 00_scope.md R6, row by row. -/
theorem test_config_values :
    (config.divoMin, config.divoMax, config.divnMin, config.divnMax) = (4, 511, 41, 216) ∧
    (config.fvcoMin, config.fvcoMax, config.fracBits) = (6860000000, 8650000000, 24) ∧
    (config.partMinHz, config.partMaxHz) = (16000000, 2100000000) ∧
    (config.cpBreak1, config.cpBreak2, config.cpBreak3) = (7000000000, 7400000000, 7800000000) ∧
    (config.smallThreshold, config.classScale) = (5, 10000) ∧
    (config.divBase, config.divLen, config.xoBase, config.xoLen) = (0x10, 6, 0x50, 8) ∧
    (config.ctrlAddr, config.trigAddr) = (0x60, 0x62) ∧
    (config.setupSeq, config.trigLarge, config.trigSmall) =
      ([0x00, 0x20, 0x00, 0x01, 0x00], [0x01, 0x00], [0x02, 0x00]) ∧
    (config.xoBand1Lo, config.xoBand1Hi, config.xoBand2Lo, config.xoBand2End, config.xoBand3Lo,
      config.xoBand3Hi) = (40000000, 80000000, 100000000, 140000000, 140000000, 166000000) ∧
    config.bulkLen = 256 := by decide

theorem test_refMaps_wellFormed : FieldMaps.WellFormed Config.refMaps := by decide

/-- Condition 1: a zero mask, and a mask with a gap. -/
theorem test_map_mask : ¬ FieldMaps.WellFormed
      { Config.refMaps with div := { Config.refDivMap with chargePump := [⟨2, 0x1C⟩, ⟨2, 0⟩] } } ∧
    ¬ FieldMaps.WellFormed
      { Config.refMaps with div := { Config.refDivMap with chargePump := [⟨2, 0x2C⟩] } } := by
  decide

/-- Condition 2: one bit in two pieces. -/
theorem test_map_overlap : ¬ FieldMaps.WellFormed
    { Config.refMaps with div := { Config.refDivMap with chargePump := [⟨2, 0x0E⟩] } } := by decide

/-- Condition 3: an offset outside the block. -/
theorem test_map_offset : ¬ FieldMaps.WellFormed
    { Config.refMaps with xo := { Config.refXoMap with vsel := [⟨8, 0x03⟩] } } := by decide

/-- Condition 4: a divider field of the wrong width. -/
theorem test_map_divWidth : ¬ FieldMaps.WellFormed
    { Config.refMaps with div := { Config.refDivMap with chargePump := [⟨2, 0x0C⟩] } } := by decide

/-- Condition 5: a trim field wider than its container. -/
theorem test_map_xoWidth : ¬ FieldMaps.WellFormed
    { Config.refMaps with xo := { Config.refXoMap with doublerDisabled := [⟨0, 0x03⟩] } } := by decide

/-- An instance with an ill-formed map does not run. -/
theorem test_illFormed_refused :
    step { State.reset with maps :=
      { Config.refMaps with xo := { Config.refXoMap with vsel := [⟨8, 0x03⟩] } } } =
      .refused .illFormedFieldMap :=
  step_refused (by decide)

/-! ### The codec (95_test_vectors.md sections 2.1, 2.2 and 2.5) -/

theorem test_pack : pack 0xE3 5 0x1C = .ok 0xF7 ∧ pack 0xAA 0 0xF0 = .ok 0x0A ∧
    pack 0xFF 8 0x1C = .error .fieldOverflow ∧ pack 0xE3 5 0 = .error .illegalOperand ∧
    pack 0 5 0x0A = .ok 0x0A ∧ pack 0 3 0x0A = .error .fieldOverflow ∧
    pack 0 2 0x80 = .error .fieldOverflow ∧ pack 0x5A 3 0x06 = .ok 0x5E := by decide

theorem test_unpack : unpack 0xF3 0x1C = .ok 4 ∧ unpack 0xFF 0x0A = .ok 5 ∧ unpack 0x80 0x80 = .ok 1 ∧
    unpack 0xF3 0 = .error .illegalOperand := by decide

/-- The image with od bit 8 in byte 1, and the one whose reserved bits [7:5] of byte 2 are kept. -/
theorem test_encodeDiv :
    encodeDiv Config.refDivMap (Vector.replicate 6 0) (dividers 435 58 0 6960000000) 5 =
      .ok #v[0xB3, 0x75, 0x14, 0x00, 0x00, 0x00] ∧
    encodeDiv Config.refDivMap (Vector.replicate 6 0xFF) (dividers 511 216 0xFFFFFF 0) 2 =
      .ok #v[0xFF, 0xB1, 0xE9, 0xFF, 0xFF, 0xFF] ∧
    decodeDiv Config.refDivMap #v[0xB3, 0x75, 0x14, 0x00, 0x00, 0x00] = (435, 58, 0, 5) := by decide

theorem test_encodeXo :
    encodeXoTrim Config.refXoMap (Vector.replicate 8 0xFF) Config.xoBand1Tuple =
      .ok #v[0xFE, 0x12, 0x3C, 0x02, 0x0F, 0xFF, 0xFF, 0xFF] ∧
    encodeXoUser Config.refXoMap #v[0x00, 0x12, 0x3C, 0x02, 0x01, 0x00, 0x00, 0x00] 1 2 =
      .ok #v[0x00, 0x12, 0x3C, 0x02, 0x01, 0x01, 0x02, 0x00] ∧
    decodeXoUser Config.refXoMap (Vector.replicate 8 0xFF) = (3, 3) := by decide

/-- XoTuple(0xCDAB97F1) and the band-1 word (43_xo_trim.md R181, R183). -/
theorem test_xoWord : xoWord Config.xoBand1Tuple = 0x023C0122 ∧ xoTuple 0xCDAB97F1 =
    { doublerDisabled := true, amplifierGm := 0xF, capX1 := 0xAB, ampSlice := 7, capX2 := 0xCD,
      overtoneDisabled := false, overtoneResistor := 9 } := by decide

/-! ### The pure commands, one step each -/

theorem test_execPack : after (.pack 0x0A 0xFF 0) (ready 0x00FF0A10 0 0 0 0) errRes0 =
    some (.none, 0xF5, false) := by decide

theorem test_execUnpack : after (.unpack 0x06 0x5A) (ready 0x005A0611 0 0 0 0) errRes0 =
    some (.none, 1, false) := by decide

/-- Section 2.3: an integer solution, a carry, no solution because frac = 2^24, the stall. -/
theorem test_solver : solved 16000000 60000000 false = some (435, 58, 0, 6960000000, .integer) ∧
    solved 2100000000 80000000 false = some (4, 53, 0x800001, 8400000000, .fractional) ∧
    solved 1391999999 60000000 false = none ∧ solved 100000000 120000000 false = none ∧
    solved 3600000000 60000000 false = none := by decide

theorem test_execSolve : after .solve (ready 0x12 156250000 49152000 0 0)
    (fun t => (t.regs.res0, t.regs.res1, t.regs.res2, t.regs.res3, t.status.err)) =
      some (0x0046002C, 0x80EFA556, 0x99C82CC0, 0x00000001, .none) := by decide

/-- ARG2 = 2 is refused (R152). -/
theorem test_execSolve_arg2 : after .solve (ready 0x12 156250000 49152000 2 0) errRes0 =
    some (.illegalOperand, 0, false) := by decide

/-- ARG1 is the high half. -/
theorem test_execSelectCp : after .selectCp (ready 0x13 0xB91309FF 1 0 0) errRes0 =
    some (.none, 4, false) ∧
    after .selectCp (ready 0x13 0xB9130A00 1 0 0) errRes0 = some (.none, 3, false) := by decide

theorem test_execXoLookup : after .xoLookup (ready 0x14 80000000 0 0 0) errRes0 =
    some (.none, 0x023C0122, false) ∧
    after .xoLookup (ready 0x14 80000001 0 0 0) errRes0 = some (.unsupportedReference, 0, false) := by
  decide

/-- Section 2.6: saturation, and the boundary of Small. -/
theorem test_execClassify : after .classify (ready 0x15 0xFFFFFFFF 1 0 0)
      (fun t => (t.regs.res0, t.regs.res1)) = some (0xFFFFFFFF, 1) ∧
    after .classify (ready 0x15 99950001 100000000 0 0)
      (fun t => (t.regs.res0, t.regs.res1)) = some (4, 0) := by decide

theorem test_execGetRate : after .getRate (inited 100000000 0x03 0) errRes0 =
    some (.none, 100000000, false) := by decide

/-- Section 2.7: STATUS = 0x00035000. -/
theorem test_execGetRate_uninitialized : after .getRate (ready 0x03 0 0 0 0)
    (fun t => statusWord t.status) = some 0x00035000 := by decide

theorem test_execRoundRate : after .roundRate (ready 0x04 156250000 0 0 0) errRes0 =
    some (.none, 156250000, false) := by decide

theorem test_execAbort : after .abort (ready 0x08 0 0 0 0)
    (fun t => (t.status.err, t.status.lastOp)) = some (.none, 0x08) := by decide

/-! ### The port commands, one step each (section 2.7) -/

theorem test_execInit_reads : after .init (ready 0x01 60000000 16000000 2100000000 0)
    (fun t => (t.status.fsm, t.hidden.pending)) = some (.computing, some (.read 0x50 8)) := by decide

/-- ILLEGAL_OPERAND comes before UNSUPPORTED_REFERENCE. -/
theorem test_execInit_order : after .init (ready 0x01 39000000 2100000000 16000000 0)
    (fun t => t.status.err) = some .illegalOperand := by decide

/-- From a zero read, the image of 16 MHz is B3 75 14 00 00 00. -/
theorem test_execSetRate_image : after .setRate
    (let s := answeredBy (inited 0 0x02 16000000) .computing (.read 0x10 6) 0 okZero
     { s with hidden := { s.hidden with solution := dividers 435 58 0 6960000000, cpCode := 5 } })
    (fun t => t.hidden.pending) = some (some (.write [(0x10, 0xB3), (0x11, 0x75), (0x12, 0x14),
      (0x13, 0x00), (0x14, 0x00), (0x15, 0x00)])) := by decide

/-- 1_391_999_999 Hz: NO_DIVIDER_SOLUTION, STATE = Failed, CLASS = Large. -/
theorem test_execSetRate_noSolution : after .setRate (inited 0 0x02 1391999999)
    (fun t => (t.status.err, t.status.fsm, t.status.cls)) =
      some (.noDividerSolution, .failed, .large) := by decide

theorem test_execBulkLoad : after .bulkLoad (inited 0 0x05 0) (fun t => t.status.err) =
    some .illegalState := by decide

/-- OE = 4 does not fit two bits. -/
theorem test_execSetXoUser : after (.setXoUser 4 0) (inited 0 0x00000406 0) (fun t => t.status.err) =
    some .fieldOverflow := by decide

/-- Bits [3:2] of the XO word are reserved. -/
theorem test_execSetXoTrim : after .setXoTrim (inited 0 0x07 0x023C012E) (fun t => t.status.err) =
    some .illegalOperand := by decide

/-- 0x023C0123 changes doubler_disabled, so DIV_VALID falls. -/
theorem test_execSetXoTrim_divValid : after .setXoTrim
    (let s := answeredBy (inited 0 0x07 0x023C0123) .writing (.write []) 0 okZero
     { s with status := { s.status with divValid := true } })
    (fun t => (t.clock.xo.doublerDisabled, t.status.divValid)) = some (true, false) := by decide

/-! ### Script offsets (30_encoding.md R100, R101): each name is the register it reaches -/

theorem test_hostOffset : ([.cmd, .status, .arg0, .arg1, .arg2, .arg3, .res0, .res1, .res2, .res3,
    .portErr, .refHz, .reqHz, .actHz, .minHz, .maxHz, .divNo, .frac, .vcoLo, .vcoHi, .cp, .xoSet,
    .xoUser, .imgDiv0, .imgDiv1, .imgXo0, .imgXo1, .bulk 0, .bulk 63, .reserved] : List HostReg).all
      (fun r => hostReg (hostOffset r) = r) = true := by decide

/-! ### Witnesses: states and operands that meet the hypotheses of each obligation, clause by clause -/

/-- INIT with its read outstanding and answered. -/
def initReading : State :=
  answeredBy (ready 0x01 60000000 16000000 2100000000 0) .computing (.read 0x50 8) 0 okZero

/-- INIT with its write outstanding and answered. -/
def initWriting : State :=
  answeredBy (ready 0x01 60000000 16000000 2100000000 0) .writing (.write [(0x50, 0)]) 0 okZero

/-- SET_RATE of 100 MHz with its read outstanding and answered. -/
def rateReading : State :=
  let s := answeredBy (inited 0 0x02 100000000) .computing (.read 0x10 6) 0 okZero
  { s with hidden := { s.hidden with solution := dividers 72 60 0 7200000000, cpCode := 4 } }

/-- SET_RATE of 100 MHz with write number k + 1 outstanding and answered. -/
def rateWriting (k : BitVec 4) (c : RateClass) : State :=
  let s := answeredBy (inited 0 0x02 100000000) .committing (.write [(0x60, 0)]) k okZero
  { s with
    status := { s.status with cls := c }
    hidden := { s.hidden with solution := dividers 72 60 0 7200000000, cpCode := 4 } }

/-- The state s with an ABORT pending. -/
def aborting (s : State) : State := setAbortPending s true

theorem witness_DecodeEncodeRoundTrip : (Instr.pack 0xFF 0xFF 0xFF).WellFormed := trivial

theorem witness_DecodeFollowsOpcodeTable :
    (⟨0x000000FF, 0x10⟩ : Row) ∈ opcodeRows ∧
    Row.selects ⟨0x000000FF, 0x10⟩ 0xFFFFFF10 = true ∧
    Row.selects ⟨0xFF0000FF, 0x11⟩ 0x00FFFF11 = true ∧
    Row.selects ⟨0xFFFFFFFF, 0x15⟩ 0x00000015 = true := by decide

theorem witness_StepTakesNextMove_first :
    mapsOk (ready 0x01 0 0 0 0).maps = true ∧
    decodeWord (latchedWord (ready 0x01 0 0 0 0)) = .ok .init ∧
    (ready 0x01 0 0 0 0).status.busy = true ∧ (ready 0x01 0 0 0 0).hidden.pending = none ∧
    (ready 0x01 0 0 0 0).inputs = [] ∧
    (setInputs (ready 0x01 0 0 0 0) [.ctrl]).inputs = .ctrl :: [] := by decide

theorem witness_StepTakesNextMove_answer :
    mapsOk initReading.maps = true ∧ decodeWord (latchedWord initReading) = .ok .init ∧
    initReading.status.busy = true ∧ initReading.hidden.pending.isSome = true ∧
    initReading.inputs = .port okZero :: [] := by decide

theorem witness_StepTakesNextMove_others :
    (setInputs State.reset [.host (.read 0x004)]).inputs = .host (.read 0x004) :: [] ∧
    (setInputs initReading [.reset]).inputs = .reset :: [] ∧
    (setInputs State.reset [.port okZero]).inputs = .port okZero :: [] ∧
    State.reset.status.busy = false ∧ State.reset.hidden.pending = none ∧
    (setInputs initReading []).inputs = [] ∧
    (setInputs initReading []).hidden.pending.isSome = true := by decide

theorem witness_IllegalWordFinishes :
    mapsOk (ready 0x16 0 0 0 0).maps = true ∧ (ready 0x16 0 0 0 0).status.busy = true ∧
    (ready 0x16 0 0 0 0).hidden.pending = none ∧ (ready 0x16 0 0 0 0).inputs = [] ∧
    decodeWord (latchedWord (setInputs (ready 0x16 0 0 0 0) [.ctrl])) = .error .unknownOpcode ∧
    (setInputs (ready 0x16 0 0 0 0) [.ctrl]).inputs = .ctrl :: [] := by decide

theorem witness_CommandAccepted : (withArgs 1 2 3 4).status.busy = false := by decide

/-- Each outcome of R201 and R223: a first ABORT, a repeated one, one after the first write, another
word. -/
theorem witness_BusyCommandDroppedOrAborts :
    (initReading.status.busy = true ∧ initReading.hidden.wrote = false) ∧
    ((aborting initReading).status.busy = true ∧
      (aborting initReading).status.abortPending = true) ∧
    (initWriting.status.busy = true ∧ initWriting.hidden.wrote = true) := by decide

theorem witness_PendingAbortResolves :
    ((aborting (ready 0x10 0 0 0 0)).status.abortPending = true ∧
      (aborting (ready 0x10 0 0 0 0)).hidden.pending = none) ∧
    ((aborting initReading).status.abortPending = true ∧
      (aborting initReading).hidden.pending = some (.read 0x50 8) ∧
      (aborting initReading).inputs = .port (.ok (Vector.replicate 8 0)) :: []) ∧
    ReadingCommand .init := ⟨by decide, by decide, trivial⟩

theorem witness_PortFailureRecorded :
    (setInputs initReading [.port (.fail 0xFF)]).inputs = .port (.fail 0xFF) :: [] ∧
    initReading.hidden.pending = some (.read 0x50 8) ∧ ReadingCommand .init ∧
    initWriting.hidden.pending = some (.write [(0x50, 0)]) ∧ PortCommand .init :=
  ⟨by decide, by decide, trivial, by decide, trivial⟩

theorem witness_LateHostWritesUnseen : ∃ t, exec .setRate rateReading = .next t := exec_next _ _

theorem witness_HostAccessesAreWholeWords :
    (0x004 : BitVec 12).toNat / 4 = (0x007 : BitVec 12).toNat / 4 ∧
    (0x02C : BitVec 12).toNat / 4 = 0x0B ∧ (0x02F : BitVec 12).toNat / 4 = 0x0B ∧
    (0x070 ≤ (0x070 : BitVec 12).toNat ∧ (0x070 : BitVec 12).toNat < 0x100) ∧
    (0x070 ≤ (0x0FF : BitVec 12).toNat ∧ (0x0FF : BitVec 12).toNat < 0x100) ∧
    0x200 ≤ (0x200 : BitVec 12).toNat ∧ 0x200 ≤ (0xFFF : BitVec 12).toNat ∧
    (4 ≤ (0x004 : BitVec 12).toNat ∧ (0x007 : BitVec 12).toNat < 8) ∧
    (0x018 ≤ (0x018 : BitVec 12).toNat ∧ (0x018 : BitVec 12).toNat < 0x100) ∧
    (0x008 ≤ (0x008 : BitVec 12).toNat ∧ (0x00B : BitVec 12).toNat < 0x00C ∧
      (0x00F : BitVec 12).toNat < 0x010 ∧ (0x013 : BitVec 12).toNat < 0x014 ∧
      (0x017 : BitVec 12).toNat < 0x018) := by decide

theorem witness_BulkWindowReadsBack : MemoryCanonical State.reset ∧
    (0x100 ≤ (0x100 : BitVec 12).toNat ∧ (0x100 : BitVec 12).toNat < 0x200) ∧
    (0x100 ≤ (0x1FF : BitVec 12).toNat ∧ (0x1FF : BitVec 12).toNat < 0x200) ∧
    (0x0FF : BitVec 12).toNat / 4 ≠ (0x100 : BitVec 12).toNat / 4 :=
  ⟨⟨by decide, by decide⟩, by decide⟩

theorem witness_StatusWordLayout : (0 : Word) = hostReadValue State.reset 0x004 := by decide

theorem witness_ResetClearsEverything : mapsOk (setInputs initWriting [.reset]).maps = true ∧
    (setInputs initWriting [.reset]).inputs = .reset :: [] := by decide

theorem witness_IsLowestBit : IsLowestBit 0x1C 2 ∧ IsLowestBit 0x80 7 ∧ IsLowestBit 0x0A 1 := by
  unfold IsLowestBit; decide

theorem witness_FitsMask : IsLowestBit 0x1C 2 ∧ contiguous 0x1C = true ∧ IsLowestBit 0x0A 1 ∧
    contiguous 0x0A = false :=
  ⟨witness_IsLowestBit.1, by decide, witness_IsLowestBit.2.2, by decide⟩

/-- 7 is the largest value that fits 0x1C, 8 the smallest that does not; 5 fits the mask 0x0A. -/
theorem witness_FitsAt : FitsAt 7 0x1C 2 ∧ ¬ FitsAt 8 0x1C 2 ∧ FitsAt 5 0x0A 1 := by
  have h (m : Byte) (v : Nat) (h0 : m ≠ 0) : fits v m = true ↔ FitsAt v m (lsb m) := fits_iff h0 v
  exact ⟨(h 0x1C 7 (by decide)).1 (by decide),
    fun hc => absurd ((h 0x1C 8 (by decide)).2 hc) (by decide),
    (h 0x0A 5 (by decide)).1 (by decide)⟩

theorem witness_PackResult : (ready 0x10 0 0 0 0).status.abortPending = false ∧
    IsLowestBit 0x1C 2 ∧ FitsAt (7 : Byte).toNat 0x1C 2 :=
  ⟨by decide, witness_IsLowestBit.1, witness_FitsAt.1⟩

theorem witness_UnpackResult : (ready 0x11 0 0 0 0).status.abortPending = false ∧
    IsLowestBit 0x80 7 := ⟨by decide, witness_IsLowestBit.2.1⟩

theorem witness_CodecRefusals : (ready 0x10 0 0 0 0).status.abortPending = false ∧
    IsLowestBit 0x1C 2 ∧ ¬ FitsAt (8 : Byte).toNat 0x1C 2 :=
  ⟨by decide, witness_IsLowestBit.1, witness_FitsAt.2.1⟩

theorem witness_CodecRoundTrips : (0x0A : Byte) ≠ 0 ∧ fits 5 0x0A = true := by decide

/-- output_divider of the reference map: 511 is its largest value, 512 the smallest too wide. -/
theorem witness_PutFieldWritesOnlyItsField : masksOk Config.refDivMap.outputDivider = true ∧
    piecesDisjoint Config.refDivMap.outputDivider = true ∧
    offsetsOk 6 Config.refDivMap.outputDivider = true ∧
    511 < 2 ^ width Config.refDivMap.outputDivider ∧
    2 ^ width Config.refDivMap.outputDivider ≤ 512 := by decide

theorem witness_DividerImageRoundTrip : divMapOk Config.refDivMap = true := by decide

theorem witness_SolveWithinBounds : solveDividers 16000000 60000000 false =
    some (dividers 435 58 0 6960000000, .integer) := by decide

theorem witness_SolveIntegerIsFirstExact : 120000000 = 60000000 * (if false then 1 else 2) ∧
    solveDividers 100000000 60000000 false = some (dividers 72 60 0 7200000000, .integer) := by
  decide

/-- At 80 MHz 2*rem = pfd, the least that rounds; at 60 MHz 156.25 MHz truncates. -/
theorem witness_SolveFractionalRounding : (160000000 = 80000000 * (if false then 1 else 2) ∧
      4 = 1 + 6860000000 / 2100000000 ∧ 8400000000 = 2100000000 * 4 ∧
      solveDividers 2100000000 80000000 false =
        some (dividers 4 53 0x800001 8400000000, .fractional) ∧
      2 * (8400000000 % 160000000) ≥ 160000000) ∧
    (44 = 1 + 6860000000 / 156250000 ∧ 6875000000 = 156250000 * 44 ∧
      solveDividers 156250000 60000000 false =
        some (dividers 44 57 0x4AAAAA 6875000000, .fractional) ∧
      2 * (6875000000 % 120000000) < 120000000) := by decide

theorem witness_SolveFindsFirstExact : 120000000 = 60000000 * (if false then 1 else 2) ∧
    0 < 100000000 ∧ 4 ≤ 72 ∧ 1 + 6860000000 / 100000000 ≤ 72 ∧ 72 < 511 ∧
    120000000 ∣ 100000000 * 72 ∧ (∀ o, 1 + 6860000000 / 100000000 ≤ o → o < 72 →
      ¬ 120000000 ∣ 100000000 * o) ∧
    41 * 120000000 ≤ 100000000 * (1 + 6860000000 / 100000000) ∧ 100000000 * 72 ≤ 8650000000 ∧
    100000000 * 72 < 217 * 120000000 := by
  refine ⟨by decide, by decide, by decide, by decide, by decide, by decide, ?_, by decide,
    by decide, by decide⟩
  intro o h1 h2
  omega

theorem witness_SolveStallsOnHighReference :
    16000000 ≤ 1715000000 ∧ 1715000000 ≤ 2100000000 ∧ 104573171 ≤ 104573171 := by decide

theorem witness_SolveCommand :
    ((ready 0x12 100000000 60000000 2 0).status.abortPending = false ∧
      2 ≤ (ready 0x12 100000000 60000000 2 0).hidden.latch.a2.toNat ∧
      (ready 0x12 0 60000000 0 0).hidden.latch.a0 = 0 ∧
      (ready 0x12 100000000 0 0 0).hidden.latch.a1 = 0) ∧
    (let q := (ready 0x12 100000000 60000000 1 0).hidden.latch
     q.a2.toNat < 2 ∧ q.a0 ≠ 0 ∧ q.a1 ≠ 0 ∧
      solveDividers q.a0.toNat q.a1.toNat (decide (q.a2 = 1)) =
        some (dividers 69 115 0 6900000000, .integer)) ∧
    (let q := (ready 0x12 100000000 120000000 0 0).hidden.latch
     q.a2.toNat < 2 ∧ q.a0 ≠ 0 ∧ q.a1 ≠ 0 ∧
      solveDividers q.a0.toNat q.a1.toNat (decide (q.a2 = 1)) = none) := by decide

/-- The breakpoints and the values just below them (R172). -/
theorem witness_SelectCpResult :
    (ready 0x13 0xA13B85FF 1 0 0).status.abortPending = false ∧
    6999999999 = (ready 0x13 0xA13B85FF 1 0 0).hidden.latch.a0.toNat +
      2 ^ 32 * (ready 0x13 0xA13B85FF 1 0 0).hidden.latch.a1.toNat ∧
    7000000000 = (ready 0x13 0xA13B8600 1 0 0).hidden.latch.a0.toNat +
      2 ^ 32 * (ready 0x13 0xA13B8600 1 0 0).hidden.latch.a1.toNat ∧
    7400000000 = (ready 0x13 0xB9130A00 1 0 0).hidden.latch.a0.toNat +
      2 ^ 32 * (ready 0x13 0xB9130A00 1 0 0).hidden.latch.a1.toNat ∧
    7800000000 = (ready 0x13 0xD0EA8E00 1 0 0).hidden.latch.a0.toNat +
      2 ^ 32 * (ready 0x13 0xD0EA8E00 1 0 0).hidden.latch.a1.toNat := by decide

/-- The edges of the bands. -/
theorem witness_XoLookupResult :
    (ready 0x14 40000000 0 0 0).status.abortPending = false ∧
    (40000000 = (ready 0x14 40000000 0 0 0).hidden.latch.a0.toNat ∧ 40000000 ≤ 80000000) ∧
    (139999999 = (ready 0x14 139999999 0 0 0).hidden.latch.a0.toNat ∧ 100000000 ≤ 139999999 ∧
      139999999 < 140000000) ∧
    (140000000 = (ready 0x14 140000000 0 0 0).hidden.latch.a0.toNat ∧ 140000000 ≤ 166000000) ∧
    (39999999 = (ready 0x14 39999999 0 0 0).hidden.latch.a0.toNat ∧ 39999999 < 40000000) ∧
    (80000001 = (ready 0x14 80000001 0 0 0).hidden.latch.a0.toNat ∧ 80000000 < 80000001) ∧
    (166000001 = (ready 0x14 166000001 0 0 0).hidden.latch.a0.toNat ∧ 166000000 < 166000001) := by
  decide

/-- From 100 MHz, 99_950_001 Hz is Small and 99_950_000 Hz is Large; from 0 every rate is Large. -/
theorem witness_ClassifyResult :
    (ready 0x15 99950001 100000000 0 0).status.abortPending = false ∧
    (99950001 = (ready 0x15 99950001 100000000 0 0).hidden.latch.a0.toNat ∧
      100000000 = (ready 0x15 99950001 100000000 0 0).hidden.latch.a1.toNat ∧
      49999 + min 99950001 100000000 = max 99950001 100000000 ∧ 49999 * 10000 < 5 * 100000000) ∧
    (50000 + min 99950000 100000000 = max 99950000 100000000 ∧
      5 * 100000000 ≤ 50000 * 10000) ∧
    (0 = (ready 0x15 123 0 0 0).hidden.latch.a1.toNat ∧ 123 + min 123 0 = max 123 0) := by decide

theorem witness_RateQueriesAndAbortComplete :
    (inited 100000000 0x03 0).status.abortPending = false ∧
    (inited 100000000 0x03 0).status.initialized = true ∧
    (ready 0x03 0 0 0 0).status.initialized = false := by decide

/-- INIT's outcomes in the order of its checks. -/
theorem witness_InitFirstStep :
    (let s := inited 0 0x01 0
     s.status.abortPending = false ∧ s.hidden.pending = none ∧ s.status.initialized = true) ∧
    (let q := (ready 0x01 60000000 15999999 2100000000 0).hidden.latch
     ¬ (16000000 ≤ q.a1.toNat ∧ q.a1.toNat ≤ q.a2.toNat ∧ q.a2.toNat ≤ 2100000000)) ∧
    (let q := (ready 0x01 39999999 16000000 2100000000 0).hidden.latch
     16000000 ≤ q.a1.toNat ∧ q.a1.toNat ≤ q.a2.toNat ∧ q.a2.toNat ≤ 2100000000 ∧
      xoTrimOf q.a0.toNat = none) ∧
    (let q := (ready 0x01 60000000 100000000 200000000 99999999).hidden.latch
     xoTrimOf q.a0.toNat = some Config.xoBand1Tuple ∧ q.a3 ≠ 0 ∧ q.a3.toNat < q.a1.toNat) ∧
    (let s := ready 0x01 60000000 100000000 200000000 200000000
     s.status.abortPending = false ∧ s.hidden.pending = none ∧ s.status.initialized = false ∧
      xoTrimOf s.hidden.latch.a0.toNat = some Config.xoBand1Tuple ∧
      s.hidden.latch.a1.toNat ≤ s.hidden.latch.a3.toNat ∧
      s.hidden.latch.a3.toNat ≤ s.hidden.latch.a2.toNat ∧
      trimFits s.maps.xo Config.xoBand1Tuple = true) ∧
    trimFits { Config.refXoMap with capX1 := [⟨2, 0x1F⟩] } Config.xoBand1Tuple = false := by decide

theorem witness_InitWritesTrim : xoMapOk initReading.maps.xo = true ∧
    initReading.status.abortPending = false ∧ initReading.hidden.pending = some (.read 0x50 8) ∧
    initReading.inputs = .port (.ok (Vector.replicate 8 0)) :: [] ∧
    xoTrimOf initReading.hidden.latch.a0.toNat = some Config.xoBand1Tuple ∧
    trimFits initReading.maps.xo Config.xoBand1Tuple = true := by decide

theorem witness_InitCompletes : initWriting.hidden.pending = some (.write [(0x50, 0)]) ∧
    initWriting.inputs = .port (.ok (Vector.replicate 8 0)) :: [] ∧
    xoTrimOf initWriting.hidden.latch.a0.toNat = some Config.xoBand1Tuple := by decide

/-- SET_RATE's outcomes in the order of its checks, at the bounds of the rate. -/
theorem witness_SetRateFirstStep :
    ((ready 0x02 16000000 0 0 0).status.initialized = false ∧
      (ready 0x02 16000000 0 0 0).status.abortPending = false ∧
      (ready 0x02 16000000 0 0 0).hidden.pending = none) ∧
    (let s := inited 0 0x02 15999999
     s.status.initialized = true ∧ s.hidden.latch.a0.toNat < s.clock.minHz.toNat) ∧
    (let s := inited 0 0x02 1391999999
     s.clock.minHz.toNat ≤ s.hidden.latch.a0.toNat ∧
      s.hidden.latch.a0.toNat ≤ s.clock.maxHz.toNat ∧
      solveDividers s.hidden.latch.a0.toNat s.clock.referenceHz.toNat
        s.clock.xo.doublerDisabled = none) ∧
    (let s := inited 0 0x02 16000000
     s.clock.minHz.toNat ≤ s.hidden.latch.a0.toNat ∧
      s.hidden.latch.a0.toNat ≤ s.clock.maxHz.toNat ∧
      solveDividers s.hidden.latch.a0.toNat s.clock.referenceHz.toNat
        s.clock.xo.doublerDisabled = some (dividers 435 58 0 6960000000, .integer)) := by decide

theorem witness_SetRateWritesImage : divMapOk rateReading.maps.div = true ∧
    rateReading.status.abortPending = false ∧ rateReading.hidden.pending = some (.read 0x10 6) ∧
    rateReading.inputs = .port (.ok (Vector.replicate 8 0)) :: [] := by decide

theorem witness_SetRateCommitSequence :
    (rateWriting 0 .small).hidden.pending = some (.write [(0x60, 0)]) ∧
    (rateWriting 0 .small).inputs = .port (.ok (Vector.replicate 8 0)) :: [] ∧
    (rateWriting 0 .small).status.step = 0 ∧
    ((rateWriting 5 .large).status.step = 5 ∧ (rateWriting 5 .large).status.cls = .large) ∧
    ((rateWriting 5 .small).status.step = 5 ∧ (rateWriting 5 .small).status.cls = .small) ∧
    (rateWriting 6 .small).status.step = 6 := by decide

theorem witness_SetRateCompletes :
    (rateWriting 7 .large).hidden.pending = some (.write [(0x60, 0)]) ∧
    (rateWriting 7 .large).inputs = .port (.ok (Vector.replicate 8 0)) :: [] ∧
    (rateWriting 7 .large).status.step = 7 := by decide

/-- SET_RATE of 100 MHz about to take its first step, with the nine answers it needs listed. -/
def rateReady : State :=
  { inited 0 0x02 100000000 with inputs := .ctrl :: List.replicate 9 (.port okZero) }

theorem witness_SetRateRunsToCommit : mapsOk rateReady.maps = true ∧ Running rateReady .setRate ∧
    rateReady.hidden.pending = none ∧ rateReady.status.abortPending = false ∧
    rateReady.status.step = 0 ∧ rateReady.status.initialized = true ∧
    rateReady.clock.minHz.toNat ≤ rateReady.hidden.latch.a0.toNat ∧
    rateReady.hidden.latch.a0.toNat ≤ rateReady.clock.maxHz.toNat ∧
    solveDividers rateReady.hidden.latch.a0.toNat rateReady.clock.referenceHz.toNat
      rateReady.clock.xo.doublerDisabled = some (dividers 72 60 0 7200000000, .integer) ∧
    rateReady.inputs = .ctrl :: .port okZero :: .port okZero :: .port okZero :: .port okZero ::
      .port okZero :: .port okZero :: .port okZero :: .port okZero :: .port okZero :: [] :=
  ⟨by decide, ⟨by decide, by decide⟩, by decide⟩

/-- Two requests of 100 MHz, the second at a rate that is already 100 MHz, both of which reach their read;
two blocks that differ in every bit of a field and agree in bits [7:5] of byte 2, which belong to none; and
two writes at the same STEP with the same class. -/
theorem witness_SetRateIdempotent :
    (let s := inited 0 0x02 100000000
     let t := inited 100000000 0x02 100000000
     s.hidden.latch.a0 = t.hidden.latch.a0 ∧ s.clock.referenceHz = t.clock.referenceHz ∧
      s.clock.xo.doublerDisabled = t.clock.xo.doublerDisabled ∧
      s.hidden.pending = none ∧ t.hidden.pending = none ∧
      after .setRate s (fun u => u.hidden.pending.isSome) = some true ∧
      after .setRate t (fun u => u.hidden.pending.isSome) = some true ∧
      t.clock.actualHz = t.hidden.latch.a0) ∧
    (divMapOk rateReading.maps.div = true ∧ rateReading.status.abortPending = false ∧
      rateReading.hidden.pending = some (.read 0x10 6) ∧
      ∀ i j : Fin 8, (h : i.val < 6) →
        (∀ p ∈ divPieces rateReading.maps.div, p.off = i.val → p.mask.getLsbD j.val = false) →
        (#v[0x00, 0x00, 0xE0, 0x00, 0x00, 0x00, 0x00, 0x00] : XoImage)[i.val].getLsbD j.val =
          (#v[0xFF, 0xFF, 0xFF, 0xFF, 0xFF, 0xFF, 0xFF, 0xFF] : XoImage)[i.val].getLsbD j.val) ∧
    ((rateWriting 5 .small).hidden.pending = some (.write [(0x60, 0)]) ∧
      (rateWriting 5 .small).inputs = .port (.ok (Vector.replicate 8 0)) :: []) := by
  decide

theorem witness_BulkLoadRuns :
    ((inited 0 0x05 0).status.abortPending = false ∧ (inited 0 0x05 0).hidden.pending = none ∧
      (inited 0 0x05 0).status.initialized = true) ∧
    ((ready 0x05 0 0 0 0).status.abortPending = false ∧
      (ready 0x05 0 0 0 0).hidden.pending = none ∧
      (ready 0x05 0 0 0 0).status.initialized = false) ∧
    (let s := answeredBy (ready 0x05 0 0 0 0) .writing (.write []) 0 okZero
     s.hidden.pending = some (.write []) ∧
      s.inputs = .port (.ok (Vector.replicate 8 0)) :: []) := by decide

/-- The two definitional hypotheses name the refused and the reading state; the others are met at the
edge of a two-bit field and of a five-bit one. -/
theorem witness_XoCommandFirstSteps (s : State) :
    (∃ fails : ErrCode → State, ∀ e, fails e = { s with
      status := { s.status with err := e, busy := false, abortPending := false } }) ∧
    ((inited 0 0x00000306 0).status.abortPending = false ∧
      (inited 0 0x00000306 0).hidden.pending = none ∧
      (inited 0 0x00000306 0).status.initialized = true ∧
      (ready 0x00000306 0 0 0 0).status.initialized = false) ∧
    (2 ^ width Config.refXoMap.oeMode ≤ (4 : Byte).toNat ∧
      (3 : Byte).toNat < 2 ^ width Config.refXoMap.oeMode) ∧
    (inited 0 0x07 0x023C012E).hidden.latch.a0.extractLsb' 2 2 ≠ 0 ∧
    (inited 0 0x07 0x023C0122).hidden.latch.a0.extractLsb' 2 2 = 0 ∧
    (∀ f ∈ trimFields Config.refXoMap (xoTuple 0x023C0122), f.2 < 2 ^ width f.1) ∧
    (∃ f ∈ trimFields { Config.refXoMap with capX1 := [⟨2, 0x1F⟩] } (xoTuple 0x023C0122),
      2 ^ width f.1 ≤ f.2) := by
  refine ⟨⟨fun e => _, fun _ => rfl⟩, ?_⟩
  decide

theorem witness_XoCommandsWriteImage :
    (let s := answeredBy (inited 0 0x07 0x023C0123) .computing (.read 0x50 8) 0 okZero
     xoMapOk s.maps.xo = true ∧ s.status.abortPending = false ∧
      s.hidden.pending = some (.read 0x50 8) ∧
      s.inputs = .port (.ok (Vector.replicate 8 0)) :: [] ∧
      trimFits s.maps.xo (xoTuple s.hidden.latch.a0) = true ∧
      (3 : Byte).toNat < 2 ^ width s.maps.xo.oeMode ∧
      (3 : Byte).toNat < 2 ^ width s.maps.xo.vsel) := by decide

theorem witness_XoCommandsComplete :
    (let s := answeredBy (inited 0 0x07 0x023C0123) .writing (.write []) 0 okZero
     s.hidden.pending = some (.write []) ∧
      s.inputs = .port (.ok (Vector.replicate 8 0)) :: []) := by decide

theorem witness_PureCommandFrame : ¬ PortCommand .solve ∧
    ∃ t, exec .solve (ready 0x12 100000000 60000000 0 0) = .next t :=
  ⟨fun h => h, exec_next _ _⟩

theorem witness_PortCommandFrame : PortCommand .bulkLoad ∧
    (∃ t, exec .bulkLoad (ready 0x05 0 0 0 0) = .next t) ∧
    after .bulkLoad (inited 0 0x05 0) (fun t => (t.status.busy, t.status.err)) =
      some (false, .illegalState) := ⟨trivial, exec_next _ _, by decide⟩

theorem witness_StepKeepsMemoryCanonical : MemoryCanonical rateReady ∧
    ∃ t, step rateReady = .next t := ⟨⟨by decide, by decide⟩, ⟨_, rfl⟩⟩

/-- The invariant of the sequencer holds with INIT's read outstanding. -/
theorem witness_SequencerInv : SequencerInv initReading where
  pending_running _ := ⟨.init, ⟨by decide, by decide⟩, trivial⟩
  resting h := by cases h
  reading _ _ _ := ⟨by decide, by decide, by decide, .init, ⟨by decide, by decide⟩, trivial⟩
  writing _ h := by cases h
  fresh _ h := by cases h
  abort_free h := by cases h
  fits _ i hi := by
    have hd : decodeWord (latchedWord initReading) = .ok .init := by decide
    have he := hi.2
    rw [hd] at he
    cases he
    exact ⟨Config.xoBand1Tuple, by decide, by decide⟩
  step_le := by decide
  latched := ⟨by decide, by decide⟩

theorem witness_ClockInv : ClockInv initReading where
  rate_in_bounds h := by cases h
  dividers_in_bounds h := by cases h
  vco_exact h := by cases h
  frac_mode h := absurd rfl h
  pump_range h := by cases h
  rates_equal := rfl
  unset _ := ⟨rfl, rfl⟩
  checked i hi _ := by
    have hd : decodeWord (latchedWord initReading) = .ok .init := by decide
    have he := hi.2
    rw [hd] at he
    cases he
    exact ⟨by decide, by decide, fun h => absurd rfl h⟩

/-- The premises of the invariant statements and of the whole-machine rules: the invariant, no reset next,
and a step that answers a next state. -/
theorem witness_MachineInv : MachineInv initReading ∧ ¬ ResetNext initReading ∧
    ∃ t, step initReading = .next t :=
  ⟨⟨⟨by decide, by decide⟩, witness_SequencerInv, witness_ClockInv⟩,
    (by rintro ⟨_, h⟩; cases h), ⟨_, rfl⟩⟩

/-- CHIP_UNDEF rises and falls: a write that fails, a commit that succeeds. -/
theorem witness_ChipUndefChangesOnlyAsStated :
    (initWriting.status.chipUndef = false ∧
      after .init (setInputs initWriting [.port (.fail 1)]) (fun t => t.status.chipUndef) =
        some true) ∧
    (let s := setChipUndef (rateWriting 7 .small) true
     s.status.chipUndef = true ∧
      after .setRate s (fun t => t.status.chipUndef) = some false) := by decide

theorem witness_ResultsWrittenOnlyOnNone :
    ∃ t, exec .roundRate (ready 0x04 1 0 0 0) = .next t := exec_next _ _

theorem witness_PortTrafficAsListed : SequencerInv initReading ∧
    (∀ tx, initReading.hidden.pending = some tx → LegalTxn tx) ∧ ∃ t, step initReading = .next t :=
  ⟨witness_SequencerInv, fun tx h => by cases h; exact .inr ⟨rfl, rfl⟩, ⟨_, rfl⟩⟩

theorem witness_StepNeverFaults : mapsOk State.reset.maps = true ∧
    mapsOk { Config.refMaps with xo := { Config.refXoMap with vsel := [⟨8, 0x03⟩] } } = false := by
  decide

end Sys2Proof.Tests
end

/-! SUPPORT. One controller step of the running command and one step of the whole machine, said once: what
each can do from a state in which the sequencer is consistent. The invariants of 10_state.md and the rules
about what changes when are read off these two case lists. -/

namespace Sys2Proof.Machine

open Sys2Proof

/-! ### The running command -/

/-- At most one command runs. -/
theorem Running.unique {s : State} {i j : Instr} (hi : Running s i) (hj : Running s j) : i = j :=
  Except.ok.inj (hi.2.symm.trans hj.2)

theorem ReadingCommand.portCommand {i : Instr} (h : ReadingCommand i) : PortCommand i := by
  cases i with
  | init | setRate | setXoUser | setXoTrim => exact trivial
  | _ => cases h

/-- With a transaction outstanding, the command that runs is a port command whose values fit. -/
theorem SequencerInv.outstanding {s : State} (hs : SequencerInv s) {i : Instr} (hr : Running s i)
    (hp : s.hidden.pending.isSome = true) : PortCommand i ∧ FitsChecked s i := by
  obtain ⟨j, hj, hk⟩ := hs.pending_running hp
  exact ⟨hr.unique hj ▸ hk, hs.fits hp i hr⟩

/-- A controller that is not busy has nothing outstanding. -/
theorem SequencerInv.pending_of_idle {s : State} (hs : SequencerInv s)
    (hb : s.status.busy = false) : s.hidden.pending = none := by
  by_contra h
  obtain ⟨i, hi, -⟩ := hs.pending_running (Option.isSome_iff_ne_none.2 h)
  exact absurd hi.1 (by simp [hb])

/-- An illegal latched word has nothing outstanding. -/
theorem SequencerInv.pending_of_illegal {s : State} (hs : SequencerInv s) {e : Reject}
    (hd : decodeWord (latchedWord s) = .error e) : s.hidden.pending = none := by
  by_contra h
  obtain ⟨i, hi, -⟩ := hs.pending_running (Option.isSome_iff_ne_none.2 h)
  exact absurd (hi.2.symm.trans hd) (by simp)

/-- What an outstanding write says of STEP and of a pending ABORT. -/
theorem SequencerInv.of_write {s : State} (hs : SequencerInv s) {es : List (Byte × Byte)}
    (hp : s.hidden.pending = some (.write es)) :
    s.status.step.toNat ≤ 7 ∧ s.status.abortPending = false := by
  obtain ⟨hw, h⟩ := hs.writing es hp
  refine ⟨?_, ?_⟩
  · obtain ⟨-, h0⟩ | ⟨-, -, h7, -⟩ := h
    · simp [h0]
    · exact h7
  · by_contra ha
    have := (hs.abort_free (by simpa using ha)).2
    simp [hw] at this

/-- Below its bound STEP counts one up (44_sequencer.md R227). -/
theorem countWrite_step_toNat {s : State} (h : s.status.step.toNat ≤ 7) :
    (countWrite s).status.step.toNat = s.status.step.toNat + 1 := by
  have h15 : s.status.step ≠ 15 := by rintro h'; simp [h'] at h
  have h1 : (1 : BitVec 4).toNat = 1 := rfl
  rw [countWrite_step, if_neg h15, BitVec.toNat_add, h1]
  omega

/-! ### What one controller step of the running command can do -/

/-- Everything one controller step of the running command `i` can do (44_sequencer.md R202), once the
sequencer is consistent and the field maps are well-formed. -/
inductive CommandMove (i : Instr) (s : State) : State → Prop
  /-- The first step ends with an error and nothing done. -/
  | refuses (e : ErrCode) (he : e ≠ .none) (hp : s.hidden.pending = none) :
      CommandMove i s (finish s e)
  /-- A pure command finishes NONE with its results. -/
  | results (r0 r1 r2 r3 : Word) (hk : ¬ PortCommand i) (hp : s.hidden.pending = none) :
      CommandMove i s (finish { s with
        regs := { s.regs with res0 := r0, res1 := r1, res2 := r2, res3 := r3 } } .none)
  /-- SET_RATE finds no divider solution. -/
  | unsolved (c : RateClass) (hk : i = .setRate) (hp : s.hidden.pending = none) :
      CommandMove i s
        (finish (setFsm (setFsm (setClass s c) .computing) .failed) .noDividerSolution)
  /-- A command that changes the XO block has passed its checks and reads the block. -/
  | readsXo (hk : ReadingCommand i) (hf : FitsChecked s i) (hc : CheckedSoFar s i)
      (hp : s.hidden.pending = none) :
      CommandMove i s (issueRead (setFsm s .computing) config.xoBase config.xoLen)
  /-- SET_RATE has a solution and reads the divider block. -/
  | readsDiv (c : RateClass) (r : DividerSet) (mode : SolveMode) (hk : i = .setRate)
      (hi : s.status.initialized = true) (hlo : s.clock.minHz.toNat ≤ argA0 s)
      (hhi : argA0 s ≤ s.clock.maxHz.toNat)
      (hr : solveDividers (argA0 s) s.clock.referenceHz.toNat s.clock.xo.doublerDisabled =
        some (r, mode))
      (hp : s.hidden.pending = none) :
      CommandMove i s (issueRead (setSolution (setFsm (setClass s c) .computing) r mode
        (selectChargePump r.vcoHz.toNat)) config.divBase config.divLen)
  /-- BULK_LOAD writes its snapshot. -/
  | writesBulk (hk : i = .bulkLoad) (hi : s.status.initialized = false)
      (ha : s.status.abortPending = false) (hp : s.hidden.pending = none) :
      CommandMove i s (issueWrite (setFsm s .writing) (bulkEntries s.hidden.snap))
  /-- The port has not answered. -/
  | waits (hp : s.hidden.pending.isSome = true) : CommandMove i s s
  /-- The read fails. -/
  | readFails (a : Byte) (n : Nat) (c : Byte) (hp : s.hidden.pending = some (.read a n)) :
      CommandMove i s
        (finish (setFsm (setPortErr (dropAnswer s) c) .failed) .transportFailure)
  /-- The read is answered, but an ABORT is pending. -/
  | readAborted (a : Byte) (n : Nat) (hp : s.hidden.pending = some (.read a n)) :
      CommandMove i s (finish (setFsm (dropAnswer s) .idle) .aborted)
  /-- SET_RATE writes the divider image. -/
  | writesDiv (a : Byte) (n : Nat) (img : DivImage) (hk : i = .setRate)
      (ha : s.status.abortPending = false) (hp : s.hidden.pending = some (.read a n)) :
      CommandMove i s (issueWrite (setFsm (setImgDiv (dropAnswer s) img) .writing)
        (imageEntries config.divBase img.toList))
  /-- A command that changes the XO block writes its image; INIT keeps the user fields it read. -/
  | writesXo (a : Byte) (n : Nat) (img : XoImage) (oe vs : Byte) (hk : ReadingCommand i)
      (ha : s.status.abortPending = false) (hp : s.hidden.pending = some (.read a n)) :
      CommandMove i s
        (issueWrite (setFsm (setImgXo (setUserRead (dropAnswer s) oe vs) img) .writing)
          (imageEntries config.xoBase img.toList))
  /-- The write fails. -/
  | writeFails (es : List (Byte × Byte)) (c : Byte) (rest : List Event)
      (hp : s.hidden.pending = some (.write es)) (hi : s.inputs = .port (.fail c) :: rest) :
      CommandMove i s
        (finish (setFsm (setChipUndef (setPortErr (dropAnswer s) c) true) .failed)
          .transportFailure)
  /-- SET_RATE issues its next one-entry write. -/
  | writesNext (es : List (Byte × Byte)) (e : Byte × Byte) (hk : i = .setRate)
      (he : e ∈ commitWrites s.status.cls)
      (h7 : (countWrite (dropAnswer s)).status.step.toNat ≤ 7)
      (hp : s.hidden.pending = some (.write es)) :
      CommandMove i s (issueWrite (setFsm (countWrite (dropAnswer s)) .committing) [e])
  /-- INIT succeeds. -/
  | initDone (es : List (Byte × Byte)) (x : XoSettings) (hk : i = .init)
      (hp : s.hidden.pending = some (.write es)) :
      CommandMove i s (succeed { countWrite (dropAnswer s) with
        clock := initClock s x
        status := { (countWrite (dropAnswer s)).status with
          initialized := true, divValid := false, fracMode := false } })
  /-- SET_RATE commits. -/
  | rateDone (es : List (Byte × Byte)) (hk : i = .setRate)
      (hp : s.hidden.pending = some (.write es)) :
      CommandMove i s (succeed (commitRate (countWrite (dropAnswer s))))
  /-- BULK_LOAD succeeds. -/
  | bulkDone (es : List (Byte × Byte)) (hk : i = .bulkLoad)
      (hp : s.hidden.pending = some (.write es)) :
      CommandMove i s (succeed (countWrite (dropAnswer s)))
  /-- SET_XO_USER succeeds. -/
  | userDone (es : List (Byte × Byte)) (oe vs : Byte) (hk : i = .setXoUser oe vs)
      (hp : s.hidden.pending = some (.write es)) :
      CommandMove i s (setXoUserAfterWrite oe vs (countWrite (dropAnswer s)))
  /-- SET_XO_TRIM succeeds. -/
  | trimDone (es : List (Byte × Byte)) (hk : i = .setXoTrim)
      (hp : s.hidden.pending = some (.write es)) :
      CommandMove i s (setXoTrimAfterWrite (countWrite (dropAnswer s)))

/-- A port command's step is one of those once its three parts are. -/
theorem runPort_commandMove {i : Instr} {first : State → State}
    {afterRead : State → XoImage → State} {afterWrite : State → State} {s : State}
    (hfirst : s.hidden.pending = none → s.status.abortPending = false → CommandMove i s (first s))
    (hread : ∀ a n d, s.hidden.pending = some (.read a n) → s.status.abortPending = false →
      CommandMove i s (afterRead (dropAnswer s) d))
    (hwrite : ∀ es, s.hidden.pending = some (.write es) →
      CommandMove i s (afterWrite (countWrite (dropAnswer s)))) :
    CommandMove i s (runPort first afterRead afterWrite s) := by
  have h := runPort_portStep first afterRead afterWrite s
  generalize runPort first afterRead afterWrite s = t at h ⊢
  cases h with
  | firstAborted hp => exact .refuses _ (by decide) hp
  | firstRuns hp ha => exact hfirst hp ha
  | waits hp => exact .waits hp
  | readFails a n c _ hp => exact .readFails a n c hp
  | readAborted a n _ _ hp => exact .readAborted a n hp
  | readOk a n d _ hp _ ha => exact hread a n d hp ha
  | writeFails es c rest hp hi => exact .writeFails es c rest hp hi
  | writeOk es _ _ hp => exact hwrite es hp

section running

variable {s : State} (hm : mapsOk s.maps = true) (hs : SequencerInv s)

include hm in
/-- The two halves of `mapsOk`. -/
theorem mapsOk_halves : divMapOk s.maps.div = true ∧ xoMapOk s.maps.xo = true := by
  simpa [mapsOk] using hm

include hm hs

theorem init_commandMove (hr : Running s .init) : CommandMove .init s
    (runPort initFirst initAfterRead initAfterWrite s) := by
  refine runPort_commandMove (fun hp ha => ?_) (fun a n d hp ha => ?_) (fun es hp => ?_)
  · obtain ⟨e, h, he⟩ | ⟨hi, ⟨-, hb, -⟩, h3, hf, h⟩ := initFirst_cases s <;> rw [h]
    · exact .refuses e he hp
    · exact .readsXo trivial hf ⟨hi, hb, fun h0 => h3 fun h' => h0 (BitVec.eq_of_toNat_eq h')⟩ hp
  · obtain ⟨t, ht, hf⟩ := (hs.outstanding hr (by simp [hp])).2
    obtain ⟨img, -, h⟩ := initAfterRead_writes (s := dropAnswer s) (mapsOk_halves hm).2 d ht hf
    rw [h]
    exact .writesXo a n img _ _ trivial ha hp
  · obtain ⟨t, ht, -⟩ := (hs.outstanding hr (by simp [hp])).2
    have ht : xoTrimOf (argA0 (countWrite (dropAnswer s))) = some t := ht
    simp only [initAfterWrite, ht]
    exact .initDone es t rfl hp

omit hs in
theorem setRate_commandMove : CommandMove .setRate s
    (runPort setRateFirst setRateAfterRead setRateAfterWrite s) := by
  refine runPort_commandMove (fun hp ha => ?_) (fun a n d hp ha => ?_) (fun es hp => ?_)
  · obtain ⟨e, h, he⟩ | ⟨c, h⟩ | ⟨hi, hlo, hhi, c, r, mode, hr, h⟩ := setRateFirst_cases s <;>
      rw [h]
    · exact .refuses e he hp
    · exact .unsolved c rfl hp
    · exact .readsDiv c r mode rfl hi hlo hhi hr hp
  · obtain ⟨img, -, h⟩ := setRateAfterRead_writes (s := dropAnswer s) (mapsOk_halves hm).1 d
    rw [h]
    exact .writesDiv a n img rfl ha hp
  · obtain ⟨h7, e, he, h⟩ | ⟨-, h⟩ := setRateAfterWrite_cases (countWrite (dropAnswer s)) <;>
      rw [h]
    · exact .writesNext es e rfl he (by omega) hp
    · exact .rateDone es rfl hp

omit hm in
theorem bulkLoad_commandMove (hr : Running s .bulkLoad) : CommandMove .bulkLoad s
    (runPort bulkLoadFirst bulkLoadAfterRead succeed s) := by
  refine runPort_commandMove (fun hp ha => ?_) (fun a n d hp ha => ?_) (fun es hp => ?_)
  · obtain ⟨-, h⟩ | ⟨hi, h⟩ := bulkLoadFirst_cases s <;> rw [h]
    · exact .refuses _ (by decide) hp
    · exact .writesBulk rfl hi ha hp
  · obtain ⟨-, -, -, j, hj, hk⟩ := hs.reading a n hp
    exact (hr.unique hj ▸ hk : ReadingCommand .bulkLoad).elim
  · exact .bulkDone es rfl hp

theorem setXoUser_commandMove {oe vs : Byte} (hr : Running s (.setXoUser oe vs)) :
    CommandMove (.setXoUser oe vs) s
      (runPort (setXoUserFirst oe vs) (setXoUserAfterRead oe vs) (setXoUserAfterWrite oe vs) s) := by
  refine runPort_commandMove (fun hp ha => ?_) (fun a n d hp ha => ?_) (fun es hp => ?_)
  · obtain ⟨e, h, he⟩ | ⟨hi, hf, h⟩ := setXoUserFirst_cases oe vs s <;> rw [h]
    · exact .refuses e he hp
    · exact .readsXo trivial hf hi hp
  · obtain ⟨img, -, h⟩ := setXoUserAfterRead_writes (s := dropAnswer s) (mapsOk_halves hm).2 d
      (hs.outstanding hr (by simp [hp])).2
    rw [h]
    exact .writesXo a n img s.hidden.oeRead s.hidden.vselRead trivial ha hp
  · exact .userDone es oe vs rfl hp

theorem setXoTrim_commandMove (hr : Running s .setXoTrim) : CommandMove .setXoTrim s
    (runPort setXoTrimFirst setXoTrimAfterRead setXoTrimAfterWrite s) := by
  refine runPort_commandMove (fun hp ha => ?_) (fun a n d hp ha => ?_) (fun es hp => ?_)
  · obtain ⟨e, h, he⟩ | ⟨hi, -, hf, h⟩ := setXoTrimFirst_cases s <;> rw [h]
    · exact .refuses e he hp
    · exact .readsXo trivial hf hi hp
  · obtain ⟨img, -, h⟩ := setXoTrimAfterRead_writes (s := dropAnswer s) (mapsOk_halves hm).2 d
      (hs.outstanding hr (by simp [hp])).2
    rw [h]
    exact .writesXo a n img s.hidden.oeRead s.hidden.vselRead trivial ha hp
  · exact .trimDone es rfl hp

omit hm in
theorem exec_pure_commandMove {i : Instr} (hk : ¬ PortCommand i) (hr : Running s i) {t : State}
    (h : exec i s = .next t) : CommandMove i s t := by
  have hp : s.hidden.pending = none := by
    by_contra hp
    exact hk (hs.outstanding hr (Option.isSome_iff_ne_none.2 hp)).1
  obtain ⟨e, he, rfl⟩ | ⟨r0, r1, r2, r3, rfl, -⟩ := exec_pure hk h
  · exact .refuses e he hp
  · exact .results r0 r1 r2 r3 hk hp

/-- Every controller step of the running command is one of `CommandMove`'s. -/
theorem exec_commandMove {i : Instr} (hr : Running s i) {t : State} (h : exec i s = .next t) :
    CommandMove i s t := by
  by_cases hk : PortCommand i
  · cases i with
    | init => cases h; exact init_commandMove hm hs hr
    | setRate => cases h; exact setRate_commandMove hm
    | bulkLoad => cases h; exact bulkLoad_commandMove hs hr
    | setXoUser oe vs => cases h; exact setXoUser_commandMove hm hs hr
    | setXoTrim => cases h; exact setXoTrim_commandMove hm hs hr
    | getRate | roundRate | abort | pack | unpack | solve | selectCp | xoLookup | classify =>
      cases hk
  · exact exec_pure_commandMove hs hk hr h

end running

/-! ### What a host access can do -/

/-- `s` with other values in ARG0 to ARG3 and BULK, which the host may write at any time
(10_state.md R32, R43). -/
def withHostData (s : State) (b0 b1 b2 b3 : Word) (m : Memory) : State :=
  { s with regs := { s.regs with arg0 := b0, arg1 := b1, arg2 := b2, arg3 := b3 }, bulk := m }

/-- Everything a host access can do (R38, 44_sequencer.md R200, R201, R223). -/
inductive HostMove (s : State) : State → Prop
  /-- A command word is accepted. -/
  | accepts (w : Word) (hb : s.status.busy = false) : HostMove s (accept s w)
  /-- An ABORT becomes pending. -/
  | aborts (hb : s.status.busy = true) (hw : s.hidden.wrote = false) :
      HostMove s (setAbortPending s true)
  /-- A command word is dropped. -/
  | drops : HostMove s (setDropped s true)
  /-- A word is read, an ARG register or a word of BULK is written, or nothing happens. -/
  | data (b0 b1 b2 b3 : Word) (m : Memory) (d : Word)
      (hm : Memory.wf s.bulk = true → Memory.wf m = true) :
      HostMove s { withHostData s b0 b1 b2 b3 m with readData := d }

/-- An access that has no effect. -/
theorem HostMove.unchanged (s : State) : HostMove s s :=
  .data s.regs.arg0 s.regs.arg1 s.regs.arg2 s.regs.arg3 s.bulk s.readData id

theorem writeReg_hostMove (s : State) (r : HostReg) (w : Word) : HostMove s (writeReg s r w) := by
  cases r with
  | cmd =>
    obtain ⟨hb, h⟩ | ⟨-, -, -, h⟩ | ⟨hb, -, -, hw, h⟩ | ⟨-, h⟩ := commandWrite_cases s w <;>
      rw [writeReg, h]
    · exact .accepts w hb
    · exact .unchanged s
    · exact .aborts hb hw
    · exact .drops
  | arg0 => exact .data w s.regs.arg1 s.regs.arg2 s.regs.arg3 s.bulk s.readData id
  | arg1 => exact .data s.regs.arg0 w s.regs.arg2 s.regs.arg3 s.bulk s.readData id
  | arg2 => exact .data s.regs.arg0 s.regs.arg1 w s.regs.arg3 s.bulk s.readData id
  | arg3 => exact .data s.regs.arg0 s.regs.arg1 s.regs.arg2 w s.bulk s.readData id
  | bulk k =>
    exact .data s.regs.arg0 s.regs.arg1 s.regs.arg2 s.regs.arg3 _ s.readData
      fun h => wf_writeBulkWord h k w
  | _ => exact .unchanged s

theorem hostAccess_hostMove (s : State) (a : HostAccess) : HostMove s (hostAccess s a) := by
  cases a with
  | write addr w => exact writeReg_hostMove s (hostReg addr) w
  | read addr =>
    exact .data s.regs.arg0 s.regs.arg1 s.regs.arg2 s.regs.arg3 s.bulk (hostReadValue s addr) id

/-! ### What a step of the whole machine can do -/

/-- The sequencer's invariant is not about the agents' coming moves. -/
theorem SequencerInv.setInputs {s : State} (hs : SequencerInv s) (es : List Event) :
    SequencerInv (setInputs s es) :=
  ⟨hs.pending_running, hs.resting, hs.reading, hs.writing, hs.fresh, hs.abort_free, hs.fits,
    hs.step_le, hs.latched⟩

/-- Everything one step can do from a state in which the sequencer is consistent. -/
inductive StepMove (s : State) : State → Prop
  /-- Nothing happens but that a move which has no effect is passed over. -/
  | idles (es : List Event) : StepMove s (setInputs s es)
  /-- The host accesses a register. -/
  | host (es : List Event) (t : State) (ht : HostMove (setInputs s es) t) : StepMove s t
  /-- The platform resets the controller. -/
  | resets (rest : List Event) (hr : ResetNext s) :
      StepMove s (resetController (setInputs s rest))
  /-- An illegal word's first step. -/
  | illegal (es : List Event) (hp : s.hidden.pending = none) :
      StepMove s (illegalStep (setInputs s es))
  /-- A controller step of the running command. Only an answer of the port, which the command itself
  takes from the moves, can meet an outstanding transaction. -/
  | command (es : List Event) (i : Instr) (t : State) (hr : Running s i)
      (he : s.hidden.pending = none ∨ es = s.inputs) (hc : CommandMove i (setInputs s es) t) :
      StepMove s t

theorem step_stepMove {s t : State} (hs : SequencerInv s) (h : step s = .next t) :
    StepMove s t := by
  obtain ⟨hm, h⟩ := step_move h
  cases h with
  | idles es => exact .idles es
  | host a rest => exact .host rest _ (hostAccess_hostMove _ a)
  | resets rest hi => exact .resets rest ⟨rest, hi⟩
  | illegal es e _ hd => exact .illegal es (hs.pending_of_illegal hd)
  | firstStep es i _ hb hp hd hx =>
    exact .command es i t ⟨hb, hd⟩ (.inl hp) 
      (exec_commandMove (s := setInputs s es) hm (hs.setInputs es) ⟨hb, hd⟩ hx)
  | answered _ _ i _ hb _ _ hd hx =>
    exact .command s.inputs i t ⟨hb, hd⟩ (.inr rfl) (exec_commandMove hm hs ⟨hb, hd⟩ hx)

end Sys2Proof.Machine

/-! SUPPORT. The sequencer's invariant (10_state.md R34, R40, R44, 44_sequencer.md R223 to R227): one lemma
for each place the sequencer can stand at, then every move. -/

namespace Sys2Proof.Machine

open Sys2Proof

/-- The sequencer rests: nothing outstanding, no ABORT pending, no command running. -/
theorem SequencerInv.of_ended {t : State} (hp : t.hidden.pending = none)
    (hb : t.status.busy = false) (ha : t.status.abortPending = false)
    (hf : t.status.fsm = .idle ∨ t.status.fsm = .failed) (h8 : t.status.step.toNat ≤ 8)
    (hl : t.regs.cmd = latchedWord t ∧ t.status.lastOp = t.hidden.latch.op) : SequencerInv t where
  pending_running h := by simp [hp] at h
  resting _ := hf
  reading _ _ h := by simp [hp] at h
  writing _ h := by simp [hp] at h
  fresh h := by simp [hb] at h
  abort_free h := by simp [ha] at h
  fits h := by simp [hp] at h
  step_le := h8
  latched := hl

/-- The sequencer waits for a read. -/
theorem SequencerInv.of_reading {t : State} {i : Instr} {a : Byte} {n : Nat}
    (hp : t.hidden.pending = some (.read a n)) (hf : t.status.fsm = .computing)
    (hw : t.hidden.wrote = false) (h0 : t.status.step = 0) (hr : Running t i)
    (hk : ReadingCommand i) (hfit : FitsChecked t i)
    (hl : t.regs.cmd = latchedWord t ∧ t.status.lastOp = t.hidden.latch.op) : SequencerInv t where
  pending_running _ := ⟨i, hr, hk.portCommand⟩
  resting h := by simp [hp] at h
  reading _ _ _ := ⟨hf, hw, h0, i, hr, hk⟩
  writing _ h := by simp [hp] at h
  fresh _ h := by simp [hp] at h
  abort_free _ := ⟨hr.1, hw⟩
  fits _ _ hj := hr.unique hj ▸ hfit
  step_le := by simp [h0]
  latched := hl

/-- The sequencer waits for a write. -/
theorem SequencerInv.of_writing {t : State} {i : Instr} {es : List (Byte × Byte)}
    (hp : t.hidden.pending = some (.write es)) (hw : t.hidden.wrote = true)
    (ha : t.status.abortPending = false)
    (hst : (t.status.fsm = .writing ∧ t.status.step = 0) ∨
      (t.status.fsm = .committing ∧ 1 ≤ t.status.step.toNat ∧ t.status.step.toNat ≤ 7 ∧
        i = .setRate))
    (hr : Running t i) (hk : PortCommand i) (hfit : FitsChecked t i)
    (hl : t.regs.cmd = latchedWord t ∧ t.status.lastOp = t.hidden.latch.op) : SequencerInv t where
  pending_running _ := ⟨i, hr, hk⟩
  resting h := by simp [hp] at h
  reading _ _ h := by simp [hp] at h
  writing _ _ := ⟨hw, hst.imp_right fun ⟨hf, h1, h7, hi⟩ => ⟨hf, h1, h7, hi ▸ hr⟩⟩
  fresh _ h := by simp [hp] at h
  abort_free h := by simp [ha] at h
  fits _ _ hj := hr.unique hj ▸ hfit
  step_le := by
    obtain ⟨-, h0⟩ | ⟨-, -, h7, -⟩ := hst
    · simp [h0]
    · omega
  latched := hl

/-- A write that is answered leaves STEP at most 8. -/
theorem SequencerInv.countWrite_le {s : State} (hs : SequencerInv s) {es : List (Byte × Byte)}
    (hp : s.hidden.pending = some (.write es)) :
    (countWrite (dropAnswer s)).status.step.toNat ≤ 8 := by
  have h7 := (hs.of_write hp).1
  rw [countWrite_step_toNat (s := dropAnswer s) h7]
  exact Nat.succ_le_succ h7

/-- A controller step of the running command keeps the sequencer consistent. -/
theorem CommandMove.sequencerInv {i : Instr} {s t : State} (h : CommandMove i s t)
    (hs : SequencerInv s) (hr : Running s i) : SequencerInv t := by
  have hfresh := hs.fresh hr.1
  have hl := hs.latched
  cases h with
  | refuses e _ hp => exact .of_ended hp rfl rfl (hs.resting hp) hs.step_le hl
  | results _ _ _ _ _ hp => exact .of_ended hp rfl rfl (hs.resting hp) hs.step_le hl
  | unsolved _ _ hp => exact .of_ended hp rfl rfl (.inr rfl) hs.step_le hl
  | readsXo hk hf _ hp =>
    exact .of_reading rfl rfl (hfresh hp).1 (hfresh hp).2 (i := i) hr hk hf hl
  | readsDiv _ _ _ hk _ _ _ _ hp =>
    subst hk
    exact .of_reading rfl rfl (hfresh hp).1 (hfresh hp).2 (i := .setRate) hr trivial trivial hl
  | writesBulk hk _ ha hp =>
    subst hk
    exact .of_writing rfl rfl ha (.inl ⟨rfl, (hfresh hp).2⟩) (i := .bulkLoad) hr trivial trivial hl
  | waits => exact hs
  | readFails => exact .of_ended rfl rfl rfl (.inr rfl) hs.step_le hl
  | readAborted => exact .of_ended rfl rfl rfl (.inl rfl) hs.step_le hl
  | writesDiv a n _ hk ha hp =>
    subst hk
    obtain ⟨-, -, h0, -⟩ := hs.reading a n hp
    exact .of_writing rfl rfl ha (.inl ⟨rfl, h0⟩) (i := .setRate) hr trivial trivial hl
  | writesXo a n _ _ _ hk ha hp =>
    obtain ⟨-, -, h0, -⟩ := hs.reading a n hp
    exact .of_writing rfl rfl ha (.inl ⟨rfl, h0⟩) (i := i) hr hk.portCommand
      (hs.outstanding hr (by simp [hp])).2 hl
  | writeFails => exact .of_ended rfl rfl rfl (.inr rfl) hs.step_le hl
  | writesNext es e hk he h7 hp =>
    subst hk
    have h1 : 1 ≤ (countWrite (dropAnswer s)).status.step.toNat := by
      rw [countWrite_step_toNat (s := dropAnswer s) (hs.of_write hp).1]
      exact Nat.le_add_left 1 _
    exact .of_writing rfl rfl (hs.of_write hp).2
      (.inr ⟨rfl, h1, h7, rfl⟩) (i := .setRate) hr trivial trivial hl
  | initDone es x hk hp => exact .of_ended rfl rfl rfl (.inl rfl) (hs.countWrite_le hp) hl
  | rateDone es hk hp => exact .of_ended rfl rfl rfl (.inl rfl) (hs.countWrite_le hp) hl
  | bulkDone es hk hp => exact .of_ended rfl rfl rfl (.inl rfl) (hs.countWrite_le hp) hl
  | userDone es oe vs hk hp => exact .of_ended rfl rfl rfl (.inl rfl) (hs.countWrite_le hp) hl
  | trimDone es hk hp => exact .of_ended rfl rfl rfl (.inl rfl) (hs.countWrite_le hp) hl

/-- A host access keeps the sequencer consistent: a command is accepted only when nothing is outstanding,
an ABORT becomes pending only before the first write. -/
theorem HostMove.sequencerInv {s t : State} (h : HostMove s t) (hs : SequencerInv s) :
    SequencerInv t := by
  cases h with
  | accepts w hb =>
    have hp := hs.pending_of_idle hb
    exact {
      pending_running := fun h => by simp [accept, hp] at h
      resting := fun _ => hs.resting hp
      reading := fun _ _ h => by simp [accept, hp] at h
      writing := fun _ h => by simp [accept, hp] at h
      fresh := fun _ _ => ⟨rfl, rfl⟩
      abort_free := fun h => by simp [accept] at h
      fits := fun h => by simp [accept, hp] at h
      step_le := by simp [accept]
      latched := ⟨(latchedWord_accept s w).symm, rfl⟩ }
  | aborts hb hw => exact { hs with abort_free := fun _ => ⟨hb, hw⟩ }
  | drops => exact { hs with }
  | data => exact { hs with }

/-- The sequencer rests after a reset, with zeros in the latch (log 6). -/
theorem sequencerInv_resetController (s : State) : SequencerInv (resetController s) :=
  .of_ended rfl rfl rfl (.inl rfl) (Nat.zero_le 8)
    ⟨show (0 : Word) = wordOfFields 0 0 0 0 by decide, rfl⟩

/-- Settles O52: each move leaves the sequencer resting, waiting for a read or waiting for a write. -/
theorem stepKeepsSequencerConsistent : Obligations.StepKeepsSequencerConsistent := by
  intro s t hs h
  cases step_stepMove hs h with
  | idles es => exact hs.setInputs es
  | host es _ ht => exact ht.sequencerInv (hs.setInputs es)
  | resets rest => exact sequencerInv_resetController _
  | illegal es hp => exact .of_ended hp rfl rfl (hs.resting hp) hs.step_le hs.latched
  | command es i _ hr _ hc => exact hc.sequencerInv (hs.setInputs es) hr

end Sys2Proof.Machine

/-! SUPPORT. ClockState (10_state.md R23 to R30): which moves change it and to what, its invariant, and the
rules about when the reference, the bounds, the rates and CHIP_UNDEF change. -/

namespace Sys2Proof.Machine

open Sys2Proof

/-! ### What a solution holds (41_divider_solver.md R148, R150) -/

/-- The search ends at a divider whose VCO frequency is exactly the request times it. -/
theorem search_exact_vco {req pfd fuel : Nat} : ∀ {d od n vco : Nat},
    search req pfd fuel d = .exact od n vco → vco = req * od := by
  induction fuel with
  | zero => intro d od n vco h; cases h
  | succ fuel ih =>
    intro d od n vco h
    rw [search_succ] at h
    split_ifs at h
    · cases h; rfl
    · exact ih h

/-- Every solution is within the bounds, has exactly the VCO frequency of its divider, and a non-zero
feedback_frac only in fractional mode. -/
theorem solveDividers_sound {req ref : Nat} {dd : Bool} {r : DividerSet} {mode : SolveMode}
    (h : solveDividers req ref dd = some (r, mode)) :
    DividerBounds r ∧ r.vcoHz.toNat = req * r.outputDivider.toNat ∧
      (r.feedbackFrac ≠ 0 → mode = .fractional) := by
  rw [solveDividers_eq] at h
  split at h
  · cases h
  · rename_i od n vco hs
    obtain ⟨rfl, ho, hn, hf, hv, hb⟩ := checkSolution_some h
    refine ⟨?_, by rw [hv, ho, search_exact_vco hs], fun h0 => absurd (BitVec.eq_of_toNat_eq hf) h0⟩
    rw [dividerBounds_iff, ho, hn, hv]
    exact hb
  · obtain ⟨rfl, ho, hn, -, hv, hb⟩ := checkSolution_some h
    refine ⟨?_, by rw [hv, ho], fun _ => rfl⟩
    rw [dividerBounds_iff, ho, hn, hv]
    exact hb

/-! ### What the moves change of ClockState -/

/-- ClockState, INIT, DIV_VALID and FRACMODE are kept. -/
structure ClockKept (s t : State) : Prop where
  clock : t.clock = s.clock
  initialized : t.status.initialized = s.status.initialized
  divValid : t.status.divValid = s.status.divValid
  fracMode : t.status.fracMode = s.status.fracMode

/-- Everything a controller step of the running command can do to ClockState: only a port command that
succeeds changes it. -/
inductive ClockMove (i : Instr) (s t : State) : Prop
  | kept (h : ClockKept s t)
  | initDone (x : XoSettings) (hk : i = .init) (hp : s.hidden.pending.isSome = true)
      (hc : t.clock = initClock s x) (hi : t.status.initialized = true)
      (hd : t.status.divValid = false) (hf : t.status.fracMode = false)
      (he : t.status.err = .none) (hb : t.status.busy = false)
  | rateDone (hk : i = .setRate) (hp : s.hidden.pending.isSome = true)
      (hc : t.clock = { s.clock with
        requestedHz := s.hidden.latch.a0, actualHz := s.hidden.latch.a0,
        dividers := s.hidden.solution, chargePump := s.hidden.cpCode })
      (hi : t.status.initialized = s.status.initialized)
      (hf : t.status.fracMode = decide (s.hidden.solutionMode = .fractional))
      (he : t.status.err = .none) (hb : t.status.busy = false)
  | xoDone (x : XoSettings) (oe vs : Byte) (hk : CheckedSoFar s i → s.status.initialized = true)
      (hp : s.hidden.pending.isSome = true)
      (hc : t.clock = { s.clock with xo := x, oeMode := oe, vsel := vs })
      (hi : t.status.initialized = s.status.initialized)
      (hd : t.status.divValid = true → s.status.divValid = true)
      (hf : t.status.fracMode = s.status.fracMode)

theorem CommandMove.clockMove {i : Instr} {s t : State} (h : CommandMove i s t) :
    ClockMove i s t := by
  cases h with
  | initDone es x hk hp =>
    exact .initDone x hk (by simp [hp]) rfl rfl rfl rfl rfl rfl
  | rateDone es hk hp => exact .rateDone hk (by simp [hp]) rfl rfl rfl rfl rfl
  | userDone es oe vs hk hp =>
    subst hk
    exact .xoDone s.clock.xo oe vs id (by simp [hp]) rfl rfl id rfl
  | trimDone es hk hp =>
    subst hk
    refine .xoDone (trimOperand s) s.clock.oeMode s.clock.vsel id (by simp [hp]) rfl rfl ?_ rfl
    intro h
    simp only [setXoTrimAfterWrite, succeed, finish_divValid, setFsm_divValid] at h
    split at h
    · exact h
    · cases h
  | _ => exact .kept ⟨rfl, rfl, rfl, rfl⟩

theorem HostMove.clockKept {s t : State} (h : HostMove s t) : ClockKept s t := by
  cases h <;> exact ⟨rfl, rfl, rfl, rfl⟩

/-! ### The invariant of ClockState (R30) -/

/-- A state in which nothing of ClockState changed meets the invariant again once the running command's
checks hold there. -/
theorem ClockInv.of_kept {s t : State} (hc : ClockInv s) (hk : ClockKept s t)
    (hchk : ∀ i, Running t i → t.hidden.pending.isSome = true → CheckedSoFar t i) : ClockInv t := by
  obtain ⟨h1, h2, h3, h4⟩ := hk
  obtain ⟨hb, hd, hv, hf, hp, he, hu, -⟩ := hc
  constructor
  case checked => exact hchk
  all_goals (simp only [h1, h2, h3, h4]; assumption)

/-- A state with nothing outstanding and ClockState kept meets the invariant again. -/
theorem ClockInv.of_kept_none {s t : State} (hc : ClockInv s) (hk : ClockKept s t)
    (hp : t.hidden.pending = none) : ClockInv t :=
  hc.of_kept hk fun _ _ h => by simp [hp] at h

/-- While the running command goes on, what it has checked still holds. -/
theorem CommandMove.ended_or_checked {i : Instr} {s t : State} (h : CommandMove i s t)
    (hc : ClockInv s) (hr : Running s i) :
    t.status.busy = false ∨ (Running t i ∧ CheckedSoFar t i) := by
  have hchk := hc.checked i hr
  cases h with
  | readsXo hk hf hci hp => exact .inr ⟨hr, hci⟩
  | readsDiv c r mode hk hi hlo hhi hsol hp =>
    subst hk
    obtain ⟨hb, hv, hf⟩ := solveDividers_sound hsol
    exact .inr ⟨hr, hi, hlo, hhi, hb, hv, hf, selectChargePump_range _⟩
  | writesBulk hk hi _ hp => subst hk; exact .inr ⟨hr, hi⟩
  | waits hp => exact .inr ⟨hr, hchk hp⟩
  | writesDiv a n img hk _ hp => exact .inr ⟨hr, hchk (by simp [hp])⟩
  | writesXo a n img oe vs hk _ hp => exact .inr ⟨hr, hchk (by simp [hp])⟩
  | writesNext es e hk he h7 hp => exact .inr ⟨hr, hchk (by simp [hp])⟩
  | _ => exact .inl rfl

/-- What a controller step does to ClockState keeps its invariant: what each command has checked before
its first transaction is what the values it stores must meet. -/
theorem ClockMove.clockInv {i : Instr} {s t : State} (h : ClockMove i s t) (hc : ClockInv s)
    (hr : Running s i)
    (hchk : ∀ i, Running t i → t.hidden.pending.isSome = true → CheckedSoFar t i) :
    ClockInv t := by
  cases h with
  | kept h => exact hc.of_kept h hchk
  | initDone x hk hp hct hi hd hf =>
    subst hk
    obtain ⟨hi0, -, h3⟩ := hc.checked _ hr hp
    obtain ⟨hz, -⟩ := hc.unset hi0
    exact {
      rate_in_bounds := fun _ h0 => by rw [hct] at h0 ⊢; exact h3 h0
      dividers_in_bounds := fun h => by simp [hd] at h
      vco_exact := fun h => by simp [hd] at h
      frac_mode := fun h => by rw [hct] at h; exact absurd (by rw [initClock, hz]; rfl) h
      pump_range := fun h => by simp [hd] at h
      rates_equal := by rw [hct]; rfl
      unset := fun h => by simp [hi] at h
      checked := hchk }
  | rateDone hk hp hct hi hf =>
    subst hk
    obtain ⟨hi1, hlo, hhi, hb, hv, hfr, hcp⟩ := hc.checked _ hr hp
    exact {
      rate_in_bounds := fun _ _ => by rw [hct]; exact ⟨hlo, hhi⟩
      dividers_in_bounds := fun _ => by rw [hct]; exact hb
      vco_exact := fun _ => by rw [hct]; exact hv
      frac_mode := fun h => by rw [hct] at h; rw [hf, hfr h]; rfl
      pump_range := fun _ => by rw [hct]; exact hcp
      rates_equal := by rw [hct]
      unset := fun h => by rw [hi, hi1] at h; cases h
      checked := hchk }
  | xoDone x oe vs hk hp hct hi hd hf =>
    have hi1 := hk (hc.checked _ hr hp)
    exact {
      rate_in_bounds := fun _ h0 => by rw [hct] at h0 ⊢; exact hc.rate_in_bounds hi1 h0
      dividers_in_bounds := fun h => by rw [hct]; exact hc.dividers_in_bounds (hd h)
      vco_exact := fun h => by rw [hct]; exact hc.vco_exact (hd h)
      frac_mode := fun h => by rw [hct] at h; rw [hf]; exact hc.frac_mode h
      pump_range := fun h => by rw [hct]; exact hc.pump_range (hd h)
      rates_equal := by rw [hct]; exact hc.rates_equal
      unset := fun h => by rw [hi, hi1] at h; cases h
      checked := hchk }

theorem CommandMove.clockInv {i : Instr} {s t : State} (h : CommandMove i s t) (hc : ClockInv s)
    (hr : Running s i) : ClockInv t := by
  refine h.clockMove.clockInv hc hr fun j hj _ => ?_
  obtain hb | ⟨hri, hchk⟩ := h.ended_or_checked hc hr
  · exact absurd hj.1 (by simp [hb])
  · exact hri.unique hj ▸ hchk

/-- A host access keeps the invariant: it changes neither ClockState nor what the running command has
checked. -/
theorem HostMove.clockInv {s t : State} (h : HostMove s t) (hs : SequencerInv s)
    (hc : ClockInv s) : ClockInv t := by
  have hk := h.clockKept
  cases h with
  | accepts w hb => exact hc.of_kept_none hk (hs.pending_of_idle hb)
  | aborts => exact hc.of_kept hk hc.checked
  | drops => exact hc.of_kept hk hc.checked
  | data => exact hc.of_kept hk hc.checked

/-- ClockState after a reset. -/
theorem clockInv_resetController (s : State) : ClockInv (resetController s) where
  rate_in_bounds h := by cases h
  dividers_in_bounds h := by cases h
  vco_exact h := by cases h
  frac_mode h := absurd rfl h
  pump_range h := by cases h
  rates_equal := rfl
  unset _ := ⟨rfl, rfl⟩
  checked _ _ h := by cases h

/-- The invariant of ClockState is not about the agents' coming moves. -/
theorem ClockInv.setInputs {s : State} (hc : ClockInv s) (es : List Event) :
    ClockInv (setInputs s es) :=
  hc.of_kept ⟨rfl, rfl, rfl, rfl⟩ hc.checked

/-- Settles O53: ClockState changes only when a port command succeeds, and what that command checked
before its first transaction is the invariant of what it stores. -/
theorem stepKeepsClockInvariant : Obligations.StepKeepsClockInvariant := by
  intro s t hs hc h
  cases step_stepMove hs h with
  | idles es => exact hc.setInputs es
  | host es _ ht => exact ht.clockInv (hs.setInputs es) (hc.setInputs es)
  | resets rest => exact clockInv_resetController _
  | illegal es hp => exact hc.of_kept_none ⟨rfl, rfl, rfl, rfl⟩ hp
  | command es i _ hr _ hcm => exact hcm.clockInv (hc.setInputs es) hr

/-! ### When the reference, the bounds, the rates and CHIP_UNDEF change -/

/-- But for a reset, a step keeps ClockState, or it is a controller step of the running command. -/
theorem step_clock {s t : State} (hs : SequencerInv s) (hr : ¬ ResetNext s)
    (h : step s = .next t) :
    ClockKept s t ∨ ∃ es i, Running s i ∧ ClockMove i (setInputs s es) t := by
  cases step_stepMove hs h with
  | idles => exact .inl ⟨rfl, rfl, rfl, rfl⟩
  | host es _ ht =>
    obtain ⟨h1, h2, h3, h4⟩ := ht.clockKept
    exact .inl ⟨h1, h2, h3, h4⟩
  | resets _ hrn => exact absurd hrn hr
  | illegal => exact .inl ⟨rfl, rfl, rfl, rfl⟩
  | command es i _ hri _ hc => exact .inr ⟨es, i, hri, hc.clockMove⟩

/-- Settles O55: only INIT stores the reference and the bounds, and it has checked that INIT is clear. -/
theorem referenceImmutableOnceInitialized : Obligations.ReferenceImmutableOnceInitialized := by
  intro s t ⟨_, hs, hc⟩ hr h
  obtain ⟨h1, h2, -, -⟩ | ⟨es, i, hri, hm⟩ := step_clock hs hr h
  · rw [h1, h2]
    exact .inl ⟨rfl, rfl, rfl, rfl⟩
  cases hm with
  | kept hk =>
    rw [hk.clock, hk.initialized]
    exact .inl ⟨rfl, rfl, rfl, rfl⟩
  | initDone x hk hp hct hi _ _ he hb =>
    subst hk
    obtain ⟨hi0, -⟩ := hc.checked _ hri hp
    rw [hct]
    exact .inr ⟨hri, hi0, hi, he, hb, rfl, rfl, rfl⟩
  | rateDone _ _ hct hi =>
    rw [hct, hi]
    exact .inl ⟨rfl, rfl, rfl, rfl⟩
  | xoDone _ _ _ _ _ hct hi =>
    rw [hct, hi]
    exact .inl ⟨rfl, rfl, rfl, rfl⟩

/-- Settles O56: only SET_RATE and INIT store the rates, each when it finishes NONE. -/
theorem ratesChangeOnlyOnSuccess : Obligations.RatesChangeOnlyOnSuccess := by
  intro s t hs hr h
  obtain ⟨h1, -, -, -⟩ | ⟨es, i, hri, hm⟩ := step_clock hs hr h
  · rw [h1]
    exact .inl ⟨rfl, rfl⟩
  cases hm with
  | kept hk =>
    rw [hk.clock]
    exact .inl ⟨rfl, rfl⟩
  | initDone x hk _ hct _ _ _ he hb =>
    subst hk
    rw [hct]
    exact .inr ⟨he, hb, .inr ⟨hri, rfl, rfl⟩⟩
  | rateDone hk _ hct _ _ he hb =>
    subst hk
    rw [hct]
    exact .inr ⟨he, hb, .inl ⟨hri, rfl, rfl⟩⟩
  | xoDone _ _ _ _ _ hct =>
    rw [hct]
    exact .inl ⟨rfl, rfl⟩

theorem HostMove.chipUndef_kept {s t : State} (h : HostMove s t) :
    t.status.chipUndef = s.status.chipUndef := by
  cases h <;> rfl

/-- Everything a controller step of the running command can do to CHIP_UNDEF: a write that fails sets it,
a commit clears it (10_state.md R39). -/
theorem CommandMove.chipUndef_cases {i : Instr} {s t : State} (h : CommandMove i s t) :
    t.status.chipUndef = s.status.chipUndef ∨
    (t.status.chipUndef = true ∧ ∃ es c rest, s.hidden.pending = some (.write es) ∧
      s.inputs = .port (.fail c) :: rest ∧ t.status.err = .transportFailure ∧ t.regs.portErr = c) ∨
    (t.status.chipUndef = false ∧ i = .setRate ∧ t.status.err = .none ∧ t.status.busy = false ∧
      t.status.divValid = true) := by
  cases h with
  | writeFails es c rest hp hi => exact .inr (.inl ⟨rfl, es, c, rest, hp, hi, rfl, rfl⟩)
  | rateDone es hk hp => exact .inr (.inr ⟨rfl, hk, rfl, rfl, rfl⟩)
  | _ => exact .inl rfl

/-- Everything a step can do to CHIP_UNDEF: the same, and that a reset clears it. -/
theorem step_chipUndef_cases {s t : State} (hs : SequencerInv s) (h : step s = .next t) :
    t.status.chipUndef = s.status.chipUndef ∨
    (t.status.chipUndef = true ∧ ∃ es c rest, s.hidden.pending = some (.write es) ∧
      s.inputs = .port (.fail c) :: rest ∧ t.status.err = .transportFailure ∧ t.regs.portErr = c) ∨
    (t.status.chipUndef = false ∧ (ResetNext s ∨ (Running s .setRate ∧ t.status.err = .none ∧
      t.status.busy = false ∧ t.status.divValid = true))) := by
  cases step_stepMove hs h with
  | idles => exact .inl rfl
  | host es _ ht => exact .inl ht.chipUndef_kept
  | resets rest hr => exact .inr (.inr ⟨rfl, .inl hr⟩)
  | illegal => exact .inl rfl
  | command es i _ hr he hc =>
    obtain hk | ⟨ht, ws, c, rest, hp, hi, hend⟩ | ⟨ht, rfl, hend⟩ := hc.chipUndef_cases
    · exact .inl hk
    · have hp : s.hidden.pending = some (.write ws) := hp
      obtain rfl : es = s.inputs := he.resolve_left (by simp [hp])
      exact .inr (.inl ⟨ht, ws, c, rest, hp, hi, hend⟩)
    · exact .inr (.inr ⟨ht, .inr ⟨hr, hend⟩⟩)

/-- Settles O57, from the cases of `step_chipUndef_cases`. -/
theorem chipUndefChangesOnlyAsStated : Obligations.ChipUndefChangesOnlyAsStated := by
  intro s t hs h
  obtain hk | ⟨ht, hfail⟩ | ⟨ht, hclear⟩ := step_chipUndef_cases hs h
  · exact ⟨fun h0 h1 => by simp [hk, h0] at h1, fun h1 h0 => by simp [hk, h1] at h0⟩
  · exact ⟨fun _ _ => hfail, fun _ h0 => by simp [ht] at h0⟩
  · exact ⟨fun _ h1 => by simp [ht] at h1, fun _ _ => hclear⟩

end Sys2Proof.Machine

/-! SUPPORT. What every controller step keeps whatever its state, and that it does not see what the host
writes to ARG0 to ARG3 and BULK (10_state.md R32, R43, R33). -/

namespace Sys2Proof.Machine

open Sys2Proof

/-! ### What a port command keeps -/

/-- What no controller step of a port command changes: the host registers but PORTERR, BULK and its
snapshot, the latch, the maps, the word the host holds, DROPPED and LASTOP. -/
structure PortKept (s t : State) : Prop where
  regs : ∃ c, t.regs = { s.regs with portErr := c }
  bulk : t.bulk = s.bulk
  snap : t.hidden.snap = s.hidden.snap
  latch : t.hidden.latch = s.hidden.latch
  maps : t.maps = s.maps
  readData : t.readData = s.readData
  dropped : t.status.dropped = s.status.dropped
  lastOp : t.status.lastOp = s.status.lastOp

theorem PortKept.trans {s t u : State} (h : PortKept s t) (k : PortKept t u) : PortKept s u where
  regs := by
    obtain ⟨c, hc⟩ := h.regs
    obtain ⟨c', hc'⟩ := k.regs
    exact ⟨c', by rw [hc', hc]⟩
  bulk := k.bulk.trans h.bulk
  snap := k.snap.trans h.snap
  latch := k.latch.trans h.latch
  maps := k.maps.trans h.maps
  readData := k.readData.trans h.readData
  dropped := k.dropped.trans h.dropped
  lastOp := k.lastOp.trans h.lastOp

theorem finish_portKept (s : State) (e : ErrCode) : PortKept s (finish s e) :=
  ⟨⟨_, rfl⟩, rfl, rfl, rfl, rfl, rfl, rfl, rfl⟩

theorem writeXoImage_portKept (s : State) (x : Except ErrCode XoImage) :
    PortKept s (writeXoImage s x) := by
  cases x with
  | error e => exact finish_portKept s e
  | ok img => exact ⟨⟨_, rfl⟩, rfl, rfl, rfl, rfl, rfl, rfl, rfl⟩

/-- A port command keeps those fields once each of its three parts does. -/
theorem runPort_portKept {first : State → State} {afterRead : State → XoImage → State}
    {afterWrite : State → State} (hf : ∀ s, PortKept s (first s))
    (hr : ∀ s d, PortKept s (afterRead s d)) (hw : ∀ s, PortKept s (afterWrite s)) (s : State) :
    PortKept s (runPort first afterRead afterWrite s) := by
  have h := runPort_portStep first afterRead afterWrite s
  generalize runPort first afterRead afterWrite s = t at h ⊢
  cases h with
  | firstRuns => exact hf s
  | readOk a n d =>
    exact .trans (t := dropAnswer s) ⟨⟨_, rfl⟩, rfl, rfl, rfl, rfl, rfl, rfl, rfl⟩ (hr _ d)
  | writeOk =>
    exact .trans (t := countWrite (dropAnswer s)) ⟨⟨_, rfl⟩, rfl, rfl, rfl, rfl, rfl, rfl, rfl⟩
      (hw _)
  | _ => exact ⟨⟨_, rfl⟩, rfl, rfl, rfl, rfl, rfl, rfl, rfl⟩

theorem init_portKept (s : State) :
    PortKept s (runPort initFirst initAfterRead initAfterWrite s) := by
  refine runPort_portKept (fun s => ?_) (fun s d => ?_) (fun s => ?_) s
  · obtain ⟨e, h, -⟩ | ⟨-, -, -, -, h⟩ := initFirst_cases s <;> rw [h]
    · exact finish_portKept s e
    · exact ⟨⟨_, rfl⟩, rfl, rfl, rfl, rfl, rfl, rfl, rfl⟩
  · unfold initAfterRead
    split
    · exact finish_portKept s _
    · refine .trans ?_ (writeXoImage_portKept _ _)
      exact ⟨⟨_, rfl⟩, rfl, rfl, rfl, rfl, rfl, rfl, rfl⟩
  · unfold initAfterWrite
    split
    · exact finish_portKept s _
    · exact ⟨⟨_, rfl⟩, rfl, rfl, rfl, rfl, rfl, rfl, rfl⟩

theorem setRate_portKept (s : State) :
    PortKept s (runPort setRateFirst setRateAfterRead setRateAfterWrite s) := by
  refine runPort_portKept (fun s => ?_) (fun s d => ?_) (fun s => ?_) s
  · obtain ⟨e, h, -⟩ | ⟨c, h⟩ | ⟨-, -, -, c, r, mode, -, h⟩ := setRateFirst_cases s <;> rw [h]
    · exact finish_portKept s e
    · exact ⟨⟨_, rfl⟩, rfl, rfl, rfl, rfl, rfl, rfl, rfl⟩
    · exact ⟨⟨_, rfl⟩, rfl, rfl, rfl, rfl, rfl, rfl, rfl⟩
  · unfold setRateAfterRead
    split
    · exact finish_portKept s _
    · exact ⟨⟨_, rfl⟩, rfl, rfl, rfl, rfl, rfl, rfl, rfl⟩
  · obtain ⟨-, e, -, h⟩ | ⟨-, h⟩ := setRateAfterWrite_cases s <;> rw [h] <;>
      exact ⟨⟨_, rfl⟩, rfl, rfl, rfl, rfl, rfl, rfl, rfl⟩

theorem bulkLoad_portKept (s : State) :
    PortKept s (runPort bulkLoadFirst bulkLoadAfterRead succeed s) := by
  refine runPort_portKept (fun s => ?_) (fun s d => ?_) (fun s => ?_) s
  · obtain ⟨-, h⟩ | ⟨-, h⟩ := bulkLoadFirst_cases s <;> rw [h] <;>
      exact ⟨⟨_, rfl⟩, rfl, rfl, rfl, rfl, rfl, rfl, rfl⟩
  all_goals exact ⟨⟨_, rfl⟩, rfl, rfl, rfl, rfl, rfl, rfl, rfl⟩

theorem setXoUser_portKept (oe vs : Byte) (s : State) : PortKept s
    (runPort (setXoUserFirst oe vs) (setXoUserAfterRead oe vs) (setXoUserAfterWrite oe vs) s) := by
  refine runPort_portKept (fun s => ?_) (fun s d => ?_) (fun s => ?_) s
  · obtain ⟨e, h, -⟩ | ⟨-, -, h⟩ := setXoUserFirst_cases oe vs s <;> rw [h] <;>
      exact ⟨⟨_, rfl⟩, rfl, rfl, rfl, rfl, rfl, rfl, rfl⟩
  · exact writeXoImage_portKept s _
  · exact ⟨⟨_, rfl⟩, rfl, rfl, rfl, rfl, rfl, rfl, rfl⟩

theorem setXoTrim_portKept (s : State) :
    PortKept s (runPort setXoTrimFirst setXoTrimAfterRead setXoTrimAfterWrite s) := by
  refine runPort_portKept (fun s => ?_) (fun s d => ?_) (fun s => ?_) s
  · obtain ⟨e, h, -⟩ | ⟨-, -, -, h⟩ := setXoTrimFirst_cases s <;> rw [h] <;>
      exact ⟨⟨_, rfl⟩, rfl, rfl, rfl, rfl, rfl, rfl, rfl⟩
  · exact writeXoImage_portKept s _
  · exact ⟨⟨_, rfl⟩, rfl, rfl, rfl, rfl, rfl, rfl, rfl⟩

/-- Every controller step of a port command keeps those fields. -/
theorem exec_portKept {i : Instr} (hk : PortCommand i) {s t : State} (h : exec i s = .next t) :
    PortKept s t := by
  cases i with
  | init => cases h; exact init_portKept s
  | setRate => cases h; exact setRate_portKept s
  | bulkLoad => cases h; exact bulkLoad_portKept s
  | setXoUser oe vs => cases h; exact setXoUser_portKept oe vs s
  | setXoTrim => cases h; exact setXoTrim_portKept s
  | getRate | roundRate | abort | pack | unpack | solve | selectCp | xoLookup | classify =>
    cases hk

/-! ### The result registers and the buffers -/

/-- Settles O48: a pure command finishes, with or without results. -/
theorem pureCommandFrame : Obligations.PureCommandFrame := by
  intro i s t hk h
  obtain ⟨e, -, rfl⟩ | ⟨r0, r1, r2, r3, rfl, h23, h1, h0⟩ := exec_pure hk h
  · exact ⟨rfl, rfl, rfl, rfl, rfl, rfl, rfl, fun _ => rfl, rfl, rfl, fun _ => ⟨rfl, rfl⟩,
      fun _ _ => rfl, fun _ => rfl⟩
  · exact ⟨rfl, rfl, rfl, rfl, rfl, rfl, rfl, fun _ => rfl, rfl, rfl, h23, h1, h0⟩

/-- Settles O58: a port command keeps the result registers, a pure one writes them only when it finishes
NONE. -/
theorem resultsWrittenOnlyOnNone : Obligations.ResultsWrittenOnlyOnNone := by
  intro i s t h
  by_cases hk : PortCommand i
  · obtain ⟨c, hc⟩ := (exec_portKept hk h).regs
    rw [hc]
    exact .inl ⟨rfl, rfl, rfl, rfl⟩
  · obtain ⟨e, -, rfl⟩ | ⟨r0, r1, r2, r3, rfl, h23, h1, h0⟩ := exec_pure hk h
    · exact .inl ⟨rfl, rfl, rfl, rfl⟩
    · by_cases ha : i = .abort
      · subst ha
        obtain ⟨h2, h3⟩ := h23 (by decide)
        exact .inl ⟨h0 rfl, h1 (by decide) (by decide), h2, h3⟩
      · exact .inr ⟨rfl, rfl, hk, ha, h23, h1⟩

/-- No controller step writes BULK or its snapshot. -/
theorem exec_buffers_kept {i : Instr} {s t : State} (h : exec i s = .next t) :
    t.bulk = s.bulk ∧ t.hidden.snap = s.hidden.snap := by
  by_cases hk : PortCommand i
  · exact ⟨(exec_portKept hk h).bulk, (exec_portKept hk h).snap⟩
  · obtain ⟨e, -, rfl⟩ | ⟨r0, r1, r2, r3, rfl, -⟩ := exec_pure hk h <;> exact ⟨rfl, rfl⟩

theorem HostMove.memoryCanonical {s t : State} (h : HostMove s t) (hs : MemoryCanonical s) :
    MemoryCanonical t := by
  obtain ⟨hb, hsnap⟩ := hs
  cases h with
  | accepts w =>
    refine ⟨hb, ?_⟩
    show Memory.wf (if opField w = 0x05 then s.bulk else s.hidden.snap) = true
    split
    · exact hb
    · exact hsnap
  | aborts => exact ⟨hb, hsnap⟩
  | drops => exact ⟨hb, hsnap⟩
  | data _ _ _ _ _ _ hm => exact ⟨hm hb, hsnap⟩

/-- Settles O51: only the host writes BULK, and an accepted command takes its snapshot from it. -/
theorem stepKeepsMemoryCanonical : Obligations.StepKeepsMemoryCanonical := by
  intro s t hs h
  obtain ⟨-, hmove⟩ := step_move h
  cases hmove with
  | idles => exact hs
  | host a rest => exact (hostAccess_hostMove _ a).memoryCanonical hs
  | resets => exact ⟨rfl, rfl⟩
  | illegal => exact hs
  | firstStep es i _ _ _ _ hx =>
    obtain ⟨hb, hsnap⟩ := exec_buffers_kept hx
    exact ⟨hb ▸ hs.1, hsnap ▸ hs.2⟩
  | answered r rest i _ _ _ _ _ hx =>
    obtain ⟨hb, hsnap⟩ := exec_buffers_kept hx
    exact ⟨hb ▸ hs.1, hsnap ▸ hs.2⟩

/-! ### Late host writes (R32, R71, 70_reset_and_hazards.md R287) -/

section fields

variable (s : State) (b0 b1 b2 b3 : Word) (m : Memory)

@[simp] theorem withHostData_clock : (withHostData s b0 b1 b2 b3 m).clock = s.clock := rfl
@[simp] theorem withHostData_status : (withHostData s b0 b1 b2 b3 m).status = s.status := rfl
@[simp] theorem withHostData_hidden : (withHostData s b0 b1 b2 b3 m).hidden = s.hidden := rfl
@[simp] theorem withHostData_maps : (withHostData s b0 b1 b2 b3 m).maps = s.maps := rfl
@[simp] theorem argA0_withHostData : argA0 (withHostData s b0 b1 b2 b3 m) = argA0 s := rfl
@[simp] theorem argA1_withHostData : argA1 (withHostData s b0 b1 b2 b3 m) = argA1 s := rfl
@[simp] theorem nextAnswer_withHostData :
    nextAnswer (withHostData s b0 b1 b2 b3 m) = nextAnswer s := rfl

end fields

/-- A part of a controller step does not see ARG0 to ARG3 and BULK: with other values there it does the
same but for those values. -/
def Unseen (f : State → State) : Prop :=
  ∀ (s : State) (b0 b1 b2 b3 : Word) (m : Memory),
    f (withHostData s b0 b1 b2 b3 m) = withHostData (f s) b0 b1 b2 b3 m

/-- A choice on what is not seen, between two states that agree but for the host's data. -/
theorem ite_withHostData {c c' : Prop} [Decidable c] [Decidable c'] {x y x' y' : State}
    {b0 b1 b2 b3 : Word} {m : Memory} (hc : c' ↔ c) (hx : x' = withHostData x b0 b1 b2 b3 m)
    (hy : y' = withHostData y b0 b1 b2 b3 m) :
    (if c' then x' else y') = withHostData (if c then x else y) b0 b1 b2 b3 m := by
  by_cases h : c
  · rw [if_pos h, if_pos (hc.2 h), hx]
  · rw [if_neg h, if_neg (mt hc.1 h), hy]

theorem unseen_firstStep {f : State → State} (hf : Unseen f) : Unseen (firstStep f) :=
  fun s b0 b1 b2 b3 m => ite_withHostData Iff.rfl rfl (hf s b0 b1 b2 b3 m)

theorem unseen_onReadAnswer {k : State → XoImage → State} (hk : ∀ d, Unseen (k · d)) :
    Unseen (onReadAnswer k) := by
  intro s b0 b1 b2 b3 m
  simp only [onReadAnswer, nextAnswer_withHostData]
  cases nextAnswer s with
  | none => rfl
  | some r =>
    cases r with
    | fail c => rfl
    | ok d => exact ite_withHostData Iff.rfl rfl (hk d (dropAnswer s) b0 b1 b2 b3 m)

theorem unseen_onWriteAnswer {k : State → State} (hk : Unseen k) : Unseen (onWriteAnswer k) := by
  intro s b0 b1 b2 b3 m
  simp only [onWriteAnswer, nextAnswer_withHostData]
  cases nextAnswer s with
  | none => rfl
  | some r =>
    cases r with
    | fail c => rfl
    | ok d => exact hk (countWrite (dropAnswer s)) b0 b1 b2 b3 m

/-- A port command's step does not see them once none of its three parts does. -/
theorem unseen_runPort {first : State → State} {afterRead : State → XoImage → State}
    {afterWrite : State → State} (hf : Unseen first) (hr : ∀ d, Unseen (afterRead · d))
    (hw : Unseen afterWrite) : Unseen (runPort first afterRead afterWrite) := by
  intro s b0 b1 b2 b3 m
  simp only [runPort, withHostData_hidden]
  cases s.hidden.pending with
  | none => exact unseen_firstStep hf s b0 b1 b2 b3 m
  | some tx =>
    cases tx with
    | read a n => exact unseen_onReadAnswer hr s b0 b1 b2 b3 m
    | write es => exact unseen_onWriteAnswer hw s b0 b1 b2 b3 m

theorem writeXoImage_withHostData (s : State) (b0 b1 b2 b3 : Word) (m : Memory)
    (x : Except ErrCode XoImage) : writeXoImage (withHostData s b0 b1 b2 b3 m) x =
      withHostData (writeXoImage s x) b0 b1 b2 b3 m := by
  cases x <;> rfl

theorem unseen_init : Unseen (runPort initFirst initAfterRead initAfterWrite) := by
  refine unseen_runPort (fun s b0 b1 b2 b3 m => ?_) (fun d s b0 b1 b2 b3 m => ?_)
    (fun s b0 b1 b2 b3 m => ?_)
  · simp only [initFirst, argA0_withHostData]
    refine ite_withHostData Iff.rfl rfl (ite_withHostData Iff.rfl rfl ?_)
    cases xoTrimOf (argA0 s) with
    | none => rfl
    | some t => exact ite_withHostData Iff.rfl rfl (ite_withHostData Iff.rfl rfl rfl)
  · simp only [initAfterRead, withHostData_maps, argA0_withHostData]
    cases xoTrimOf (argA0 s) with
    | none => rfl
    | some t =>
      dsimp only
      exact writeXoImage_withHostData (setUserRead s (decodeXoUser s.maps.xo d).1
        (decodeXoUser s.maps.xo d).2) b0 b1 b2 b3 m _
  · simp only [initAfterWrite, argA0_withHostData]
    cases xoTrimOf (argA0 s) <;> rfl

theorem unseen_setRate :
    Unseen (runPort setRateFirst setRateAfterRead setRateAfterWrite) := by
  refine unseen_runPort (fun s b0 b1 b2 b3 m => ?_) (fun d s b0 b1 b2 b3 m => ?_)
    (fun s b0 b1 b2 b3 m => ?_)
  · simp only [setRateFirst, withHostData_clock, argA0_withHostData]
    refine ite_withHostData Iff.rfl rfl (ite_withHostData Iff.rfl rfl ?_)
    cases solveDividers (argA0 s) s.clock.referenceHz.toNat s.clock.xo.doublerDisabled <;> rfl
  · simp only [setRateAfterRead, withHostData_maps, withHostData_hidden]
    cases encodeDiv s.maps.div (divBlock d) s.hidden.solution s.hidden.cpCode <;> rfl
  · simp only [setRateAfterWrite, withHostData_status]
    cases (commitWrites s.status.cls)[s.status.step.toNat - 1]? <;> rfl

theorem unseen_bulkLoad : Unseen (runPort bulkLoadFirst bulkLoadAfterRead succeed) :=
  unseen_runPort (fun _ _ _ _ _ _ => ite_withHostData Iff.rfl rfl rfl)
    (fun _ _ _ _ _ _ _ => rfl) (fun _ _ _ _ _ _ => rfl)

theorem unseen_setXoUser (oe vs : Byte) : Unseen
    (runPort (setXoUserFirst oe vs) (setXoUserAfterRead oe vs) (setXoUserAfterWrite oe vs)) :=
  unseen_runPort
    (fun _ _ _ _ _ _ => ite_withHostData Iff.rfl rfl (ite_withHostData Iff.rfl rfl rfl))
    (fun _ s b0 b1 b2 b3 m => writeXoImage_withHostData s b0 b1 b2 b3 m _)
    (fun _ _ _ _ _ _ => rfl)

theorem unseen_setXoTrim :
    Unseen (runPort setXoTrimFirst setXoTrimAfterRead setXoTrimAfterWrite) :=
  unseen_runPort
    (fun _ _ _ _ _ _ => ite_withHostData Iff.rfl rfl
      (ite_withHostData Iff.rfl rfl (ite_withHostData Iff.rfl rfl rfl)))
    (fun _ s b0 b1 b2 b3 m => writeXoImage_withHostData s b0 b1 b2 b3 m _)
    (fun _ _ _ _ _ _ => rfl)

theorem unseen_getRateRule : Unseen getRateRule :=
  fun _ _ _ _ _ _ => ite_withHostData Iff.rfl rfl rfl

theorem unseen_packRule (mask byte value : Byte) : Unseen (packRule mask byte value) := by
  intro s b0 b1 b2 b3 m
  unfold packRule
  cases pack byte value.toNat mask <;> rfl

theorem unseen_unpackRule (mask byte : Byte) : Unseen (unpackRule mask byte) := by
  intro s b0 b1 b2 b3 m
  unfold unpackRule
  cases unpack byte mask <;> rfl

theorem unseen_solveRule : Unseen solveRule := by
  intro s b0 b1 b2 b3 m
  simp only [solveRule, withHostData_hidden, argA0_withHostData, argA1_withHostData]
  refine ite_withHostData Iff.rfl rfl ?_
  cases solveDividers (argA0 s) (argA1 s) (s.hidden.latch.a2.getLsbD 0) <;> rfl

theorem unseen_xoLookupRule : Unseen xoLookupRule := by
  intro s b0 b1 b2 b3 m
  simp only [xoLookupRule, argA0_withHostData]
  cases xoTrimOf (argA0 s) <;> rfl

/-- The next state of a controller step that does not see the host's data. -/
theorem Unseen.next {f : State → State} (hf : Unseen f) {s t : State} {b0 b1 b2 b3 : Word}
    {m : Memory} (h : (.next (f s) : Host.Outcome State Fault Refusal) = .next t) :
    (.next (f (withHostData s b0 b1 b2 b3 m)) : Host.Outcome State Fault Refusal) =
      .next (withHostData t b0 b1 b2 b3 m) := by
  cases h
  rw [hf]

/-- Settles O11: a controller step reads its operands from the latch and BULK from its snapshot. -/
theorem lateHostWritesUnseen : Obligations.LateHostWritesUnseen := by
  intro i s t b0 b1 b2 b3 m h
  cases i with
  | init => exact unseen_init.next h
  | setRate => exact unseen_setRate.next h
  | getRate => exact (unseen_firstStep unseen_getRateRule).next h
  | roundRate => exact (unseen_firstStep fun _ _ _ _ _ _ => rfl).next h
  | bulkLoad => exact unseen_bulkLoad.next h
  | setXoUser oe vs => exact (unseen_setXoUser oe vs).next h
  | setXoTrim => exact unseen_setXoTrim.next h
  | abort => exact (unseen_firstStep fun _ _ _ _ _ _ => rfl).next h
  | pack mask byte value => exact (unseen_firstStep (unseen_packRule mask byte value)).next h
  | unpack mask byte => exact (unseen_firstStep (unseen_unpackRule mask byte)).next h
  | solve => exact (unseen_firstStep unseen_solveRule).next h
  | selectCp => exact (unseen_firstStep fun _ _ _ _ _ _ => rfl).next h
  | xoLookup => exact (unseen_firstStep unseen_xoLookupRule).next h
  | classify => exact (unseen_firstStep fun _ _ _ _ _ _ => rfl).next h

end Sys2Proof.Machine

/-! SUPPORT. The host's window (10_state.md R31 to R38, R42, R43): which words name which registers, the
BULK window, the layout of STATUS and of the views. -/

namespace Sys2Proof.Machine

open Sys2Proof

/-! ### The register map (R31, R38) -/

/-- The registers a host write can change: CMD, ARG0 to ARG3 and BULK (R32, R34, R43). -/
def HostReg.writable : HostReg → Bool
  | .cmd | .arg0 | .arg1 | .arg2 | .arg3 | .bulk _ => true
  | _ => false

/-- A write to any other register is ignored (R38). -/
theorem writeReg_readOnly {r : HostReg} (h : r.writable = false) (s : State) (w : Word) :
    writeReg s r w = s := by
  cases r with
  | cmd | arg0 | arg1 | arg2 | arg3 | bulk => cases h
  | _ => rfl

/-- The words past the last view: the BULK window, and reserved ones on both sides of it. -/
theorem hostRegOfWord_of_ge {k : Nat} (h : 0x1C ≤ k) : hostRegOfWord k =
    if 0x40 ≤ k ∧ k < 0x80 then .bulk (k - 0x40) else .reserved := by
  unfold hostRegOfWord
  split
  -- The map's last row is the only one whose word number is not a literal below 0x1C.
  case h_28 => rfl
  all_goals exact absurd h (by decide)

/-- The reserved words. -/
theorem hostRegOfWord_reserved {k : Nat} (h : k = 0x0B ∨ (0x1C ≤ k ∧ k < 0x40) ∨ 0x80 ≤ k) :
    hostRegOfWord k = .reserved := by
  obtain rfl | h := h
  · rfl
  · rw [hostRegOfWord_of_ge (by omega), if_neg (by omega)]

/-- The read-only words and the reserved ones. -/
theorem hostRegOfWord_readOnly {k : Nat} (h : k = 1 ∨ (6 ≤ k ∧ k < 0x40) ∨ 0x80 ≤ k) :
    (hostRegOfWord k).writable = false := by
  by_cases hk : 0x1C ≤ k
  · rw [hostRegOfWord_of_ge hk, if_neg (by omega)]
    rfl
  · obtain rfl | h : k = 1 ∨ 6 ≤ k := by omega
    · rfl
    · interval_cases k <;> rfl

/-- Settles O12, from the register map: an access depends on the word number alone, and the clauses are
about reserved, read-only and ARG words. -/
theorem hostAccessesAreWholeWords : Obligations.HostAccessesAreWholeWords := by
  refine ⟨fun _ _ => rfl, fun s a b hab => ?_, fun s a ha => ?_, fun s a w ha => ?_,
    fun s a w hlo hhi => ?_, fun s => ⟨rfl, rfl, rfl, rfl, rfl, rfl, rfl, rfl, rfl⟩⟩
  · have hr : hostReg a = hostReg b := congrArg hostRegOfWord hab
    exact ⟨congrArg (regValue s) hr, fun w => congrArg (writeReg s · w) hr⟩
  · have hr : hostReg a = .reserved := hostRegOfWord_reserved (by omega)
    rw [hostReadValue, hr, regValue]
  · exact writeReg_readOnly (hostRegOfWord_readOnly (by omega)) s w
  · have hk : a.toNat / 4 = 2 ∨ a.toNat / 4 = 3 ∨ a.toNat / 4 = 4 ∨ a.toNat / 4 = 5 := by omega
    rw [hostAccess, hostReg]
    obtain hk | hk | hk | hk := hk <;> rw [hk]
    · rw [if_pos (by omega)]; rfl
    · rw [if_neg (by omega), if_pos (by omega)]; rfl
    · rw [if_neg (by omega), if_neg (by omega), if_pos (by omega)]; rfl
    · rw [if_neg (by omega), if_neg (by omega), if_neg (by omega)]; rfl

/-! ### The BULK window (R43) -/

/-- A byte of BULK after a host write of word k: the word's byte inside the word, the old byte
elsewhere. -/
theorem readByte_writeBulkWord {m : Memory} (hm : Memory.wf m = true) {k : Nat} (hk : k < 64)
    (w : Word) (i : Byte) : readByte (writeBulkWord m k w) i =
      if i.toNat / 4 = k then byteOfWord w (i.toNat % 4) else readByte m i := by
  have haddr : ∀ j < 4, (i = BitVec.ofNat 8 (4 * k + j)) = (i.toNat = 4 * k + j) := by
    intro j hj
    rw [← BitVec.toNat_inj, BitVec.toNat_ofNat, Nat.mod_eq_of_lt (by omega)]
  have h0 := haddr 0 (by omega)
  rw [Nat.add_zero] at h0
  rw [writeBulkWord, readByte_writeByte (wf_writeByte (wf_writeByte (wf_writeByte hm _ _) _ _) _ _),
    readByte_writeByte (wf_writeByte (wf_writeByte hm _ _) _ _),
    readByte_writeByte (wf_writeByte hm _ _), readByte_writeByte hm]
  simp only [h0, haddr 1 (by omega), haddr 2 (by omega), haddr 3 (by omega)]
  by_cases hw : i.toNat / 4 = k
  · rw [if_pos hw]
    obtain h | h | h | h : i.toNat % 4 = 0 ∨ i.toNat % 4 = 1 ∨ i.toNat % 4 = 2 ∨ i.toNat % 4 = 3 := by
      omega
    · rw [h, if_neg (by omega), if_neg (by omega), if_neg (by omega), if_pos (by omega)]
    · rw [h, if_neg (by omega), if_neg (by omega), if_pos (by omega)]
    · rw [h, if_neg (by omega), if_pos (by omega)]
    · rw [h, if_pos (by omega)]
  · rw [if_neg hw, if_neg (by omega), if_neg (by omega), if_neg (by omega), if_neg (by omega)]

/-- The byte of BULK that byte j of word k is. -/
theorem toNat_bulkAddress {k j : Nat} (hk : k < 64) (hj : j < 4) :
    (BitVec.ofNat 8 (4 * k + j)).toNat = 4 * k + j := by
  rw [BitVec.toNat_ofNat, Nat.mod_eq_of_lt (by omega)]

/-- Byte j of word k after a host write of word k'. -/
theorem readByte_writeBulkWord_address {m : Memory} (hm : Memory.wf m = true) {k k' j : Nat}
    (hk : k < 64) (hk' : k' < 64) (hj : j < 4) (w : Word) :
    readByte (writeBulkWord m k' w) (BitVec.ofNat 8 (4 * k + j)) =
      if k = k' then byteOfWord w j else readByte m (BitVec.ofNat 8 (4 * k + j)) := by
  have hd : (4 * k + j) / 4 = k := by omega
  have hr : (4 * k + j) % 4 = j := by omega
  rw [readByte_writeBulkWord hm hk', toNat_bulkAddress hk hj, hd, hr]

/-- A word of BULK after a host write of word k'. -/
theorem readBulkWord_writeBulkWord {m : Memory} (hm : Memory.wf m = true) {k k' : Nat}
    (hk : k < 64) (hk' : k' < 64) (w : Word) : readBulkWord (writeBulkWord m k' w) k =
      if k = k' then w else readBulkWord m k := by
  have h := fun j hj => readByte_writeBulkWord_address hm hk hk' (j := j) hj w
  have h0 := h 0 (by omega)
  rw [Nat.add_zero] at h0
  rw [readBulkWord, h0, h 1 (by omega), h 2 (by omega), h 3 (by omega)]
  split
  · exact wordOfBytes_byteOfWord w
  · rfl

/-- Only the registers of the BULK window show BULK. -/
theorem regValue_of_bulk {s : State} {m : Memory} {r : HostReg}
    (h : ∀ k, r = .bulk k → readBulkWord m k = readBulkWord s.bulk k) :
    regValue { s with bulk := m } r = regValue s r := by
  cases r with
  | bulk k => exact h k rfl
  | _ => rfl

/-- Settles O13: the write sets the four bytes of its own word of BULK, and no other register shows
BULK. -/
theorem bulkWindowReadsBack : Obligations.BulkWindowReadsBack := by
  intro s a w hs hlo hhi
  obtain ⟨k, hk⟩ : ∃ k, a.toNat / 4 = 0x40 + k := ⟨a.toNat / 4 - 0x40, by omega⟩
  have hk64 : k < 64 := by omega
  have ha : hostReg a = .bulk k := (hostReg_bulk_iff a k).2 ⟨hk64, hk⟩
  have hwrite : hostAccess s (.write a w) = { s with bulk := writeBulkWord s.bulk k w } := by
    rw [hostAccess, ha, writeReg]
  rw [hwrite]
  refine ⟨?_, fun b hb => ?_, fun i => ?_⟩
  · rw [hostReadValue, ha, regValue, readBulkWord_writeBulkWord hs.1 hk64 hk64, if_pos rfl]
  · refine regValue_of_bulk fun j hj => ?_
    obtain ⟨hj64, hbj⟩ := (hostReg_bulk_iff b j).1 hj
    rw [readBulkWord_writeBulkWord hs.1 hj64 hk64, if_neg (by omega)]
  · rw [readByte_writeBulkWord hs.1 hk64, hk, Nat.add_sub_cancel_left]

/-! ### STATUS (R35) -/

/-- A field of a word, bit by bit. -/
theorem extractLsb'_eq_of_bits {w : Word} {start n : Nat} {x : BitVec n}
    (h : ∀ j < n, w.getLsbD (start + j) = x.getLsbD j) : w.extractLsb' start n = x := by
  apply BitVec.eq_of_getLsbD_eq
  intro j hj
  rw [BitVec.getLsbD_extractLsb', h j hj, decide_eq_true hj, Bool.true_and]

/-- Each bit of STATUS. -/
theorem statusWord_getLsbD (t : Status) {j : Nat} (hj : j < 32) : (statusWord t).getLsbD j =
    if j < 1 then t.busy else if j < 4 then (fsmCode t.fsm).getLsbD (j - 1)
    else if j < 5 then t.initialized else if j < 6 then t.divValid
    else if j < 7 then t.chipUndef else if j < 8 then t.dropped
    else if j < 9 then classBit t.cls else if j < 10 then t.fracMode
    else if j < 11 then t.abortPending else if j < 12 then false
    else if j < 16 then (errCode t.err).getLsbD (j - 12)
    else if j < 24 then t.lastOp.getLsbD (j - 16)
    else if j < 28 then t.step.getLsbD (j - 24) else false := by
  simp only [statusWord, BitVec.getLsbD_setWidth, BitVec.getLsbD_append]
  interval_cases j <;> simp

/-- Settles O14, field by field from the bits of the word. -/
theorem statusWordLayout : Obligations.StatusWordLayout := by
  intro s w hw
  obtain rfl : w = statusWord s.status := hw
  generalize s.status = t
  have bit := fun j hj => statusWord_getLsbD t (j := j) hj
  have hfsm : (statusWord t).extractLsb' 1 3 = fsmCode t.fsm :=
    extractLsb'_eq_of_bits fun j hj => by rw [bit _ (by omega)]; interval_cases j <;> rfl
  have herr : (statusWord t).extractLsb' 12 4 = errCode t.err :=
    extractLsb'_eq_of_bits fun j hj => by rw [bit _ (by omega)]; interval_cases j <;> rfl
  have hcls : classBit t.cls = decide (t.cls = .large) := by cases t.cls <;> rfl
  have hfsmCodes : ∀ p ∈ ([(.idle, 0), (.computing, 1), (.writing, 2), (.committing, 3),
      (.failed, 4)] : List (FsmState × BitVec 3)), fsmCode p.1 = p.2 := by decide
  have herrCodes : ∀ p ∈ ([(.none, 0), (.outOfRange, 1), (.noDividerSolution, 2),
      (.unsupportedReference, 3), (.transportFailure, 4), (.notInitialized, 5),
      (.illegalCommand, 6), (.illegalOperand, 7), (.fieldOverflow, 8), (.illegalState, 9),
      (.aborted, 10)] : List (ErrCode × BitVec 4)), errCode p.1 = p.2 := by decide
  refine ⟨bit 0 (by decide), fun p hp h => ?_, bit 4 (by decide), bit 5 (by decide),
    bit 6 (by decide), bit 7 (by decide), (bit 8 (by decide)).trans hcls, bit 9 (by decide),
    bit 10 (by decide), bit 11 (by decide), fun p hp h => ?_,
    extractLsb'_eq_of_bits fun j hj => ?_, extractLsb'_eq_of_bits fun j hj => ?_,
    extractLsb'_eq_of_bits fun j hj => ?_⟩
  · rw [hfsm, h, hfsmCodes p hp]
  · rw [herr, h, herrCodes p hp]
  all_goals rw [bit _ (by omega)]; interval_cases j <;> rfl

/-! ### The views (R36, R37, R42) -/

/-- A host word of two bytes is below 2^16. -/
theorem wordOfBytes_low_lt (b0 b1 : Byte) : (wordOfBytes b0 b1 0 0).toNat < 2 ^ 16 := by
  have h0 := b0.isLt
  have h1 := b1.isLt
  simp only [wordOfBytes, BitVec.toNat_setWidth, toNat_append_add, BitVec.ofNat_eq_ofNat,
    BitVec.toNat_ofNat]
  omega

/-- Byte j of a host word made of four bytes of an image. -/
theorem byteOfWord_wordOfBytes_image {n : Nat} (img : Vector Byte n) {k : Nat} (hk : k + 4 ≤ n)
    {j : Nat} (hj : j < 4) :
    byteOfWord (wordOfBytes img[k] img[k + 1] img[k + 2] img[k + 3]) j = img[k + j] := by
  obtain ⟨h0, h1, h2, h3⟩ := byteOfWord_wordOfBytes img[k] img[k + 1] img[k + 2] img[k + 3]
  interval_cases j
  · exact h0
  · exact h1
  · exact h2
  · exact h3

/-- XOUSER as a natural. -/
theorem xoUser_toNat (oe vs : Byte) :
    ((vs ++ oe).setWidth 32).toNat = oe.toNat + 2 ^ 8 * vs.toNat := by
  have h0 := oe.isLt
  have h1 := vs.isLt
  simp only [BitVec.toNat_setWidth, toNat_append_add]
  omega

/-- Settles O15: each view is the word of its fields, read back as a natural or byte by byte. -/
theorem viewLayouts : Obligations.ViewLayouts := by
  intro s
  have himg4 : byteOfWord (hostReadValue s 0x064) 0 = s.imgDiv[4] ∧
      byteOfWord (hostReadValue s 0x064) 1 = s.imgDiv[5] := by
    obtain ⟨h0, h1, -⟩ := byteOfWord_wordOfBytes s.imgDiv[4] s.imgDiv[5] 0 0
    exact ⟨h0, h1⟩
  exact ⟨BitVec.toNat_setWidth_of_le (by decide), rfl, rfl, rfl, rfl, rfl, rfl,
    divNoWord_toNat s.clock.dividers,
    BitVec.toNat_setWidth_of_le (by decide),
    vcoWords_toNat s.clock.dividers, BitVec.toNat_setWidth_of_le (by decide),
    xoUser_toNat s.clock.oeMode s.clock.vsel,
    fun j hj => (byteOfWord_wordOfBytes_image s.imgDiv (k := 0) (by decide) hj).trans
      (by simp only [Nat.zero_add]),
    himg4.1, himg4.2, wordOfBytes_low_lt s.imgDiv[4] s.imgDiv[5],
    fun j hj => (byteOfWord_wordOfBytes_image s.imgXo (k := 0) (by decide) hj).trans
      (by simp only [Nat.zero_add]),
    fun j hj => byteOfWord_wordOfBytes_image s.imgXo (k := 4) (by decide) hj⟩

end Sys2Proof.Machine

/-! SUPPORT. Whose move a step takes, and the port's traffic (20_memory.md R60 to R64, R71, 44_sequencer.md
R202, 60_exceptions.md R261): one equation per move, what a Fail answer does, and that every transaction a
command issues is a listed one. -/

namespace Sys2Proof.Machine

open Sys2Proof

/-! ### Every transaction outstanding is a listed one (R60, R62, R64) -/

/-- The block one longer begins with its base and goes on at the next address. -/
theorem blockAddresses_succ (base : Byte) (n : Nat) :
    blockAddresses base (n + 1) = base :: blockAddresses (base + 1) n := by
  simp only [blockAddresses, List.range_succ_eq_map, List.map_cons, List.map_map]
  refine congrArg₂ List.cons (BitVec.add_zero base) (List.map_congr_left fun i _ => ?_)
  rw [Function.comp_apply, Nat.succ_eq_one_add, BitVec.ofNat_add, ← BitVec.add_assoc]
  rfl

/-- An image write has one entry for each address of its block. -/
theorem imageEntries_addresses (base : Byte) (bytes : List Byte) :
    (imageEntries base bytes).map Prod.fst = blockAddresses base bytes.length := by
  induction bytes generalizing base with
  | nil => rfl
  | cons b bs ih =>
    rw [imageEntries, List.map_cons, ih, List.length_cons, blockAddresses_succ]

/-- The image write of a whole block. -/
theorem imageEntries_vector_addresses {n : Nat} (base : Byte) (img : Vector Byte n) :
    (imageEntries base img.toList).map Prod.fst = blockAddresses base n := by
  rw [imageEntries_addresses, Vector.length_toList]

/-- Each of the seven one-entry writes is a listed transaction (44_sequencer.md R211, R212). -/
theorem legalTxn_commitWrite {c : RateClass} {e : Byte × Byte} (he : e ∈ commitWrites c) :
    LegalTxn (.write [e]) := by
  simp only [commitWrites, List.mem_append, List.mem_map] at he
  obtain ⟨v, hv, rfl⟩ | ⟨v, hv, rfl⟩ := he
  · exact .inr (.inr (.inl ⟨v, rfl, hv⟩))
  · refine .inr (.inr (.inr (.inl ⟨v, rfl, ?_⟩)))
    cases c with
    | large => exact .inl hv
    | small => exact .inr hv

/-- What is outstanding, if anything, is a listed transaction. -/
def TrafficLegal (s : State) : Prop := ∀ tx, s.hidden.pending = some tx → LegalTxn tx

theorem TrafficLegal.of_none {s : State} (h : s.hidden.pending = none) : TrafficLegal s :=
  fun tx htx => by simp [h] at htx

theorem TrafficLegal.of_some {s : State} {tx : Txn} (h : s.hidden.pending = some tx)
    (htx : LegalTxn tx) : TrafficLegal s :=
  fun _ h' => Option.some.inj (h.symm.trans h') ▸ htx

/-- A controller step of the running command issues only listed transactions: six of its cases issue one,
a wait leaves the outstanding one, and every other leaves none. -/
theorem CommandMove.trafficLegal {i : Instr} {s t : State} (h : CommandMove i s t)
    (hs : TrafficLegal s) : TrafficLegal t := by
  cases h with
  | readsXo => exact .of_some rfl (.inr ⟨rfl, rfl⟩)
  | readsDiv => exact .of_some rfl (.inl ⟨rfl, rfl⟩)
  | writesBulk =>
    exact .of_some rfl (.inr (.inr (.inr (.inr (bulkEntries_addresses s.hidden.snap)))))
  | waits => exact hs
  | writesDiv _ _ img => exact .of_some rfl (.inl (imageEntries_vector_addresses _ img))
  | writesXo _ _ img => exact .of_some rfl (.inr (.inl (imageEntries_vector_addresses _ img)))
  | writesNext _ e _ he => exact .of_some rfl (legalTxn_commitWrite he)
  | refuses _ _ hp => exact .of_none hp
  | results _ _ _ _ _ hp => exact .of_none hp
  | unsolved _ _ hp => exact .of_none hp
  | readFails | readAborted | writeFails | initDone | rateDone | bulkDone | userDone | trimDone =>
    exact .of_none rfl

/-- The host issues no transaction. -/
theorem HostMove.pending_kept {s t : State} (h : HostMove s t) :
    t.hidden.pending = s.hidden.pending := by
  cases h <;> rfl

/-- Settles O59: only a controller step of the running command issues a transaction. -/
theorem portTrafficAsListed : Obligations.PortTrafficAsListed := by
  refine ⟨TrafficLegal.of_none (s := State.reset) rfl, fun s t hs htr h => ?_⟩
  have htr : TrafficLegal s := htr
  show TrafficLegal t
  cases step_stepMove hs h with
  | idles => exact htr
  | host _ _ ht => exact fun tx htx => htr tx (ht.pending_kept.symm.trans htx)
  | resets => exact .of_none rfl
  | illegal _ hp => exact .of_none hp
  | command _ i _ _ _ hc => exact hc.trafficLegal htr

/-! ### The next move (R71, R202, R261) -/

/-- With well-formed maps a step takes the next move. -/
theorem step_eq_takeMove {s : State} (hm : mapsOk s.maps = true) : step s = takeMove s :=
  if_pos hm

/-- A controller step of a legal latched word is that command's. -/
theorem controllerStep_of_decode {s : State} {i : Instr}
    (hd : decodeWord (latchedWord s) = .ok i) : controllerStep s = exec i s := by
  rw [controllerStep, hd]

/-- The controller moves when its first execution step is due. -/
theorem controllerMove_due {s : State} (hb : s.status.busy = true)
    (hp : s.hidden.pending = none) : controllerMove s = controllerStep s := by
  simp [controllerMove, firstStepDue, hb, hp]

/-- A controller that is idle or waits for the port has no move of its own (R261). -/
theorem controllerMove_not_due {s : State}
    (h : s.status.busy = false ∨ s.hidden.pending.isSome = true) : controllerMove s = .next s := by
  obtain hb | hp := h
  · simp [controllerMove, firstStepDue, hb]
  · simp [controllerMove, firstStepDue, Option.isNone_eq_false_iff.2 hp]

section moves

variable {s : State} {rest : List Event}

theorem takeMove_nil (hi : s.inputs = []) : takeMove s = controllerMove s := by
  rw [takeMove, hi]

theorem takeMove_ctrl (hi : s.inputs = .ctrl :: rest) :
    takeMove s = controllerMove (setInputs s rest) := by
  rw [takeMove, hi]

theorem takeMove_host {a : HostAccess} (hi : s.inputs = .host a :: rest) :
    takeMove s = .next (hostAccess (setInputs s rest) a) := by
  rw [takeMove, hi]

theorem takeMove_reset (hi : s.inputs = .reset :: rest) :
    takeMove s = .next (resetController (setInputs s rest)) := by
  rw [takeMove, hi]

/-- An answer to the outstanding transaction of a running command. -/
theorem takeMove_answer {a : PortAnswer} (hi : s.inputs = .port a :: rest)
    (hb : s.status.busy = true) (hp : s.hidden.pending.isSome = true) :
    takeMove s = controllerStep s := by
  simp [takeMove, hi, awaitingPort, hb, hp]

/-- An answer that no transaction waits for (70_reset_and_hazards.md R282). -/
theorem takeMove_stray {a : PortAnswer} (hi : s.inputs = .port a :: rest)
    (h : s.status.busy = false ∨ s.hidden.pending = none) :
    takeMove s = .next (setInputs s rest) := by
  obtain h | h := h <;> simp [takeMove, hi, awaitingPort, h]

end moves

/-- Settles O5, from the equation of each move. -/
theorem stepTakesNextMove : Obligations.StepTakesNextMove := by
  intro s hm
  rw [step_eq_takeMove hm]
  refine ⟨fun i hd hb => ⟨fun hp hi => ?_, fun rest hp hi => ?_, fun a rest hp hi => ?_⟩,
    fun a rest hi => takeMove_host hi, fun rest hi => takeMove_reset hi,
    fun a rest hi h => takeMove_stray hi h, fun hi h => ?_⟩
  · rw [takeMove_nil hi, controllerMove_due hb hp, controllerStep_of_decode hd]
  · rw [takeMove_ctrl hi, controllerMove_due (s := setInputs s rest) hb hp]
    exact controllerStep_of_decode (s := setInputs s rest) hd
  · rw [takeMove_answer hi hb hp, controllerStep_of_decode hd]
  · rw [takeMove_nil hi, controllerMove_not_due h]

/-! ### A Fail answer (R63, R202, R223) -/

/-- Every port command is put together by `runPort`. -/
theorem exec_eq_runPort {i : Instr} (hk : PortCommand i) :
    ∃ first afterRead afterWrite, ∀ s, exec i s = .next (runPort first afterRead afterWrite s) := by
  cases i with
  | init | setRate | bulkLoad | setXoUser | setXoTrim => exact ⟨_, _, _, fun _ => rfl⟩
  | getRate | roundRate | abort | pack | unpack | solve | selectCp | xoLookup | classify =>
    cases hk

/-- The state once the next move, the port's answer, is taken. -/
theorem dropAnswer_eq {s : State} {r : PortAnswer} {rest : List Event}
    (hi : s.inputs = .port r :: rest) :
    dropAnswer s = { s with inputs := rest, hidden := { s.hidden with pending := none } } := by
  rw [dropAnswer, hi, List.tail_cons]

section fails

variable {first : State → State} {afterRead : State → XoImage → State}
  {afterWrite : State → State} {s : State} {c : Byte} {rest : List Event}
  (hi : s.inputs = .port (.fail c) :: rest)

include hi

/-- A port command whose read is answered with Fail, whether or not an ABORT is pending. -/
theorem runPort_readFails {a : Byte} {n : Nat} (hp : s.hidden.pending = some (.read a n)) :
    runPort first afterRead afterWrite s =
      finish (setFsm (setPortErr (dropAnswer s) c) .failed) .transportFailure := by
  simp only [runPort, hp, onReadAnswer, nextAnswer_port hi]

/-- A port command whose write is answered with Fail. -/
theorem runPort_writeFails {es : List (Byte × Byte)}
    (hp : s.hidden.pending = some (.write es)) :
    runPort first afterRead afterWrite s =
      finish (setFsm (setChipUndef (setPortErr (dropAnswer s) c) true) .failed)
        .transportFailure := by
  simp only [runPort, hp, onWriteAnswer, nextAnswer_port hi]

end fails

/-- Settles O10: after either await a Fail answer is met by `Read` or `Write` itself, before the command's
own code. -/
theorem portFailureRecorded : Obligations.PortFailureRecorded := by
  intro i s c rest hi
  refine ⟨fun a n hk hp => ?_, fun es hk hp => ?_⟩
  · obtain ⟨first, afterRead, afterWrite, h⟩ := exec_eq_runPort hk.portCommand
    rw [h, runPort_readFails hi hp, dropAnswer_eq hi]
    rfl
  · obtain ⟨first, afterRead, afterWrite, h⟩ := exec_eq_runPort hk
    rw [h, runPort_writeFails hi hp, dropAnswer_eq hi]
    rfl

end Sys2Proof.Machine

/-! SUPPORT. The command words (30_encoding.md R90 to R98): what the decoder answers, by the format of the
word's opcode; decoder and encoder as inverses; the rows of the opcode table a word selects; and the first
step of an illegal word (R202). -/

namespace Sys2Proof

/-! ### What the decoder answers (R91, R93, R97) -/

/-- The opcodes of format Z (R91, R93). -/
def formatZOps : List Byte :=
  [0x01, 0x02, 0x03, 0x04, 0x05, 0x07, 0x08, 0x12, 0x13, 0x14, 0x15]

/-- The opcodes of formats X and U, whose F3 is zero (R91, R93). -/
def formatF3ZeroOps : List Byte := [0x06, 0x11]

/-- Everything the decoder can answer for the word w, by the format of its opcode. -/
inductive DecodeCase (w : Word) : Except Reject Instr → Prop
  | formatZ (i : Instr) (hop : opField w = opcode i) (hz : opcode i ∈ formatZOps) :
      DecodeCase w (formatZ w i)
  | formatX (hop : opField w = 0x06) :
      DecodeCase w (formatF3Zero w (.setXoUser (f1Field w) (f2Field w)))
  | formatB (hop : opField w = 0x10) :
      DecodeCase w (.ok (.pack (f1Field w) (f2Field w) (f3Field w)))
  | formatU (hop : opField w = 0x11) :
      DecodeCase w (formatF3Zero w (.unpack (f1Field w) (f2Field w)))
  | unlisted (hz : opField w ∉ formatZOps) (hf : opField w ∉ formatF3ZeroOps)
      (hb : opField w ≠ 0x10) : DecodeCase w (.error .unknownOpcode)

theorem decodeWord_cases (w : Word) : DecodeCase w (decodeWord w) := by
  unfold decodeWord
  refine iteInduction (fun h => .formatZ _ h (by decide)) fun h01 => ?_
  refine iteInduction (fun h => .formatZ _ h (by decide)) fun h02 => ?_
  refine iteInduction (fun h => .formatZ _ h (by decide)) fun h03 => ?_
  refine iteInduction (fun h => .formatZ _ h (by decide)) fun h04 => ?_
  refine iteInduction (fun h => .formatZ _ h (by decide)) fun h05 => ?_
  refine iteInduction .formatX fun h06 => ?_
  refine iteInduction (fun h => .formatZ _ h (by decide)) fun h07 => ?_
  refine iteInduction (fun h => .formatZ _ h (by decide)) fun h08 => ?_
  refine iteInduction .formatB fun h10 => ?_
  refine iteInduction .formatU fun h11 => ?_
  refine iteInduction (fun h => .formatZ _ h (by decide)) fun h12 => ?_
  refine iteInduction (fun h => .formatZ _ h (by decide)) fun h13 => ?_
  refine iteInduction (fun h => .formatZ _ h (by decide)) fun h14 => ?_
  refine iteInduction (fun h => .formatZ _ h (by decide)) fun h15 => ?_
  refine .unlisted ?_ ?_ h10
  · simp only [formatZOps, List.mem_cons, List.not_mem_nil, or_false, not_or]
    exact ⟨h01, h02, h03, h04, h05, h07, h08, h12, h13, h14, h15⟩
  · simp only [formatF3ZeroOps, List.mem_cons, List.not_mem_nil, or_false, not_or]
    exact ⟨h06, h11⟩

/-! ### Decoder and encoder (R98, R102) -/

/-- The word of a format Z command holds its opcode and nothing else. -/
theorem encode_of_formatZ {i : Instr} (hz : opcode i ∈ formatZOps) :
    encode i = wordOfFields (opcode i) 0 0 0 := by
  cases i with
  | setXoUser | pack | unpack => simp [opcode, formatZOps] at hz
  | init | setRate | getRate | roundRate | bulkLoad | setXoTrim | abort | solve | selectCp
  | xoLookup | classify => rfl

theorem decodeWord_encode (i : Instr) : decodeWord (encode i) = .ok i := by
  cases i with
  | setXoUser | unpack => simp [encode, decodeWord, formatF3Zero_ok]
  | pack => simp [encode, decodeWord]
  | init | setRate | getRate | roundRate | bulkLoad | setXoTrim | abort | solve | selectCp
  | xoLookup | classify => decide

/-- A word is the word of its opcode, F1, F2 and F3. -/
theorem wordOfFields_opField {w : Word} {op : Byte} (hop : opField w = op) :
    wordOfFields op (f1Field w) (f2Field w) (f3Field w) = w :=
  hop ▸ wordOfFields_fields w

/-- A word with F3 = 0 is the word of its opcode, F1 and F2. -/
theorem wordOfFields_f3Zero {w : Word} {op : Byte} (hop : opField w = op) (h3 : f3Field w = 0) :
    wordOfFields op (f1Field w) (f2Field w) 0 = w :=
  h3 ▸ wordOfFields_opField hop

/-- The encoder undoes the decoder: what the decoder keeps of a word and what it checks to be zero are all
four fields. -/
theorem DecodeCase.encode_eq {w : Word} {r : Except Reject Instr} {i : Instr}
    (hc : DecodeCase w r) (h : r = .ok i) : encode i = w := by
  cases hc with
  | formatZ j hop hz =>
    obtain ⟨⟨h1, h2, h3⟩, rfl⟩ := formatZ_ok.1 h
    have hw := wordOfFields_fields w
    rwa [h1, h2, h3, hop, ← encode_of_formatZ hz] at hw
  | formatX hop =>
    obtain ⟨h3, rfl⟩ := formatF3Zero_ok.1 h
    exact wordOfFields_f3Zero hop h3
  | formatB hop =>
    cases h
    exact wordOfFields_opField hop
  | formatU hop =>
    obtain ⟨h3, rfl⟩ := formatF3Zero_ok.1 h
    exact wordOfFields_f3Zero hop h3
  | unlisted => cases h

theorem decodeWord_eq_ok_iff {w : Word} {i : Instr} : decodeWord w = .ok i ↔ encode i = w :=
  ⟨(decodeWord_cases w).encode_eq, fun h => h ▸ decodeWord_encode i⟩

/-- Settles O1, by cases on the command: the fields of an assembled word read back. -/
theorem decodeEncodeRoundTrip : Obligations.DecodeEncodeRoundTrip :=
  fun i _ => decodeWord_encode i

/-! ### The rows of the opcode table (R98) -/

/-- The command's word selects the command's row of the table. -/
theorem rowSelected (i : Instr) : Laws.RowSelected.Statement i := by
  cases i with
  | init => exact Laws.RowSelected.init
  | setRate => exact Laws.RowSelected.setRate
  | getRate => exact Laws.RowSelected.getRate
  | roundRate => exact Laws.RowSelected.roundRate
  | bulkLoad => exact Laws.RowSelected.bulkLoad
  | setXoUser oe vs => exact Laws.RowSelected.setXoUser oe vs
  | setXoTrim => exact Laws.RowSelected.setXoTrim
  | abort => exact Laws.RowSelected.abort
  | pack mask byte value => exact Laws.RowSelected.pack mask byte value
  | unpack mask byte => exact Laws.RowSelected.unpack mask byte
  | solve => exact Laws.RowSelected.solve
  | selectCp => exact Laws.RowSelected.selectCp
  | xoLookup => exact Laws.RowSelected.xoLookup
  | classify => exact Laws.RowSelected.classify

section selects

variable {m v w : Word} (h : Row.selects ⟨m, v⟩ w = true)

include h

/-- A row whose mask covers the whole word is selected by its own value alone. -/
theorem eq_of_selects (hm : m = BitVec.allOnes 32) : w = v := by
  have hv : w &&& m = v := beq_iff_eq.1 h
  rwa [hm, BitVec.and_allOnes] at hv

/-- A row whose mask covers a field fixes that field. -/
theorem field_of_selects {k : Nat} (hm : m.extractLsb' k 8 = BitVec.allOnes 8) :
    w.extractLsb' k 8 = v.extractLsb' k 8 := by
  have hv : w &&& m = v := beq_iff_eq.1 h
  rw [← hv, BitVec.extractLsb'_and, hm, BitVec.and_allOnes]

end selects

/-- Every word a row selects is the word of a command of that row. -/
theorem exists_encode_of_selects {w : Word} {r : Row} (hr : r ∈ opcodeRows)
    (h : r.selects w = true) : ∃ i, encode i = w ∧ rowOf i = r := by
  simp only [opcodeRows, List.mem_cons, List.not_mem_nil, or_false] at hr
  obtain rfl | rfl | rfl | rfl | rfl | rfl | rfl | rfl | rfl | rfl | rfl | rfl | rfl | rfl := hr
  · exact ⟨.init, (eq_of_selects h rfl).symm, rfl⟩
  · exact ⟨.setRate, (eq_of_selects h rfl).symm, rfl⟩
  · exact ⟨.getRate, (eq_of_selects h rfl).symm, rfl⟩
  · exact ⟨.roundRate, (eq_of_selects h rfl).symm, rfl⟩
  · exact ⟨.bulkLoad, (eq_of_selects h rfl).symm, rfl⟩
  · exact ⟨.setXoUser (f1Field w) (f2Field w),
      wordOfFields_f3Zero (field_of_selects h rfl) (field_of_selects h rfl), rfl⟩
  · exact ⟨.setXoTrim, (eq_of_selects h rfl).symm, rfl⟩
  · exact ⟨.abort, (eq_of_selects h rfl).symm, rfl⟩
  · exact ⟨.pack (f1Field w) (f2Field w) (f3Field w),
      wordOfFields_opField (field_of_selects h rfl), rfl⟩
  · exact ⟨.unpack (f1Field w) (f2Field w),
      wordOfFields_f3Zero (field_of_selects h rfl) (field_of_selects h rfl), rfl⟩
  · exact ⟨.solve, (eq_of_selects h rfl).symm, rfl⟩
  · exact ⟨.selectCp, (eq_of_selects h rfl).symm, rfl⟩
  · exact ⟨.xoLookup, (eq_of_selects h rfl).symm, rfl⟩
  · exact ⟨.classify, (eq_of_selects h rfl).symm, rfl⟩

/-- A word that selects a row decodes to a command of that row. -/
theorem exists_decodeWord_of_selects {w : Word} {r : Row} (hr : r ∈ opcodeRows)
    (h : r.selects w = true) : ∃ i, decodeWord w = .ok i ∧ rowOf i = r := by
  obtain ⟨i, hi, hri⟩ := exists_encode_of_selects hr h
  exact ⟨i, decodeWord_eq_ok_iff.2 hi, hri⟩

/-- Settles O2. At most one row matches a word because every row it selects is the row of the one command
the word decodes to. -/
theorem decodeFollowsOpcodeTable : Obligations.DecodeFollowsOpcodeTable := by
  refine ⟨fun w i => ⟨fun h => ?_, fun ⟨_, h⟩ => decodeWord_eq_ok_iff.2 h⟩,
    fun w r hr h => exists_decodeWord_of_selects hr h, fun w r hr r' hr' h h' => ?_⟩
  · obtain rfl := decodeWord_eq_ok_iff.1 h
    obtain ⟨-, -, hsel⟩ := rowSelected i
    exact ⟨hsel, rfl⟩
  · obtain ⟨i, hi, rfl⟩ := exists_decodeWord_of_selects hr h
    obtain ⟨i', hi', rfl⟩ := exists_decodeWord_of_selects hr' h'
    rw [Except.ok.inj (hi.symm.trans hi')]

/-! ### Illegal words (R97) -/

/-- F1, F2 and F3 are zero when the word is a byte. -/
theorem fieldsZero_iff (w : Word) :
    (f1Field w = 0 ∧ f2Field w = 0 ∧ f3Field w = 0) ↔ w.toNat < 256 := by
  have hw := toNat_fields w
  have hop := (opField w).isLt
  simp only [BitVec.toNat_eq, BitVec.ofNat_eq_ofNat, BitVec.toNat_ofNat, Nat.zero_mod]
  omega

/-- F3 is zero when the word has 24 bits. -/
theorem f3Zero_iff (w : Word) : f3Field w = 0 ↔ w.toNat < 2 ^ 24 := by
  have hw := toNat_fields w
  have hop := (opField w).isLt
  have h1 := (f1Field w).isLt
  have h2 := (f2Field w).isLt
  simp only [BitVec.toNat_eq, BitVec.ofNat_eq_ofNat, BitVec.toNat_ofNat, Nat.zero_mod]
  omega

/-- No opcode is of format Z and of format X or U. -/
theorem formatZ_disjoint {op : Byte} (h : op ∈ formatZOps) : op ∉ formatF3ZeroOps := by
  revert op
  decide

/-- The decoder refuses the opcode when, and only when, it is of no format. -/
theorem DecodeCase.unknownOpcode_iff {w : Word} {r : Except Reject Instr} (hc : DecodeCase w r) :
    r = .error .unknownOpcode ↔
      opField w ∉ formatZOps ∧ opField w ∉ formatF3ZeroOps ∧ opField w ≠ 0x10 := by
  cases hc with
  | formatZ i hop hz => simp [formatZ_error, hop, hz]
  | formatX hop => simp [formatF3Zero_error, hop, formatF3ZeroOps]
  | formatB hop => simp [hop]
  | formatU hop => simp [formatF3Zero_error, hop, formatF3ZeroOps]
  | unlisted hz hf hb => exact iff_of_true rfl ⟨hz, hf, hb⟩

/-- The decoder refuses the fields when, and only when, one is not zero that the opcode's format marks 0. -/
theorem DecodeCase.nonzeroField_iff {w : Word} {r : Except Reject Instr} (hc : DecodeCase w r) :
    r = .error .nonzeroField ↔
      (opField w ∈ formatZOps ∧ ¬ (f1Field w = 0 ∧ f2Field w = 0 ∧ f3Field w = 0)) ∨
      (opField w ∈ formatF3ZeroOps ∧ f3Field w ≠ 0) := by
  cases hc with
  | formatZ i hop hz => simp [formatZ_error, hop, hz, formatZ_disjoint hz]
  | formatX hop => simp [formatF3Zero_error, hop, formatZOps, formatF3ZeroOps]
  | formatB hop => simp [hop, formatZOps, formatF3ZeroOps]
  | formatU hop => simp [formatF3Zero_error, hop, formatZOps, formatF3ZeroOps]
  | unlisted hz hf => simp [hz, hf]

/-- The opcodes of no format, as ranges. -/
theorem unlisted_iff (op : Byte) :
    (op ∉ formatZOps ∧ op ∉ formatF3ZeroOps ∧ op ≠ 0x10) ↔
      op = 0 ∨ (0x09 ≤ op.toNat ∧ op.toNat ≤ 0x0F) ∨ 0x16 ≤ op.toNat := by
  simp only [formatZOps, formatF3ZeroOps, List.mem_cons, List.not_mem_nil, or_false, ne_eq,
    BitVec.toNat_eq, BitVec.ofNat_eq_ofNat, BitVec.toNat_ofNat, Nat.reducePow, Nat.reduceMod]
  omega

/-- Settles O3: the two refusals of the decoder, the opcodes as ranges and the zero fields as bounds. -/
theorem illegalWordsRefused : Obligations.IllegalWordsRefused := by
  intro w
  have hc := decodeWord_cases w
  refine ⟨hc.unknownOpcode_iff.trans (unlisted_iff _), ?_⟩
  rw [hc.nonzeroField_iff, fieldsZero_iff, Ne, f3Zero_iff, not_lt, not_lt]
  rfl

/-- Settles O4: the decoder evaluated on each of the words. -/
theorem specWordsDecode : Obligations.SpecWordsDecode := by
  unfold Obligations.SpecWordsDecode
  decide

namespace Machine

/-! ### The first step of an illegal word (R202) -/

/-- A controller step of an illegal latched word. -/
theorem controllerStep_of_illegal {s : State} {e : Reject}
    (hd : decodeWord (latchedWord s) = .error e) : controllerStep s = .next (illegalStep s) := by
  rw [controllerStep, hd]

/-- Settles O6: with no move listed or on `ctrl` the controller moves, and its step ends the command. -/
theorem illegalWordFinishes : Obligations.IllegalWordFinishes := by
  rintro s e _ hm hb hp hd rfl
  rw [step_eq_takeMove hm]
  refine ⟨fun hi => ?_, fun rest hi => ?_⟩
  · rw [takeMove_nil hi, controllerMove_due hb hp, controllerStep_of_illegal hd]
    rfl
  · rw [takeMove_ctrl hi, controllerMove_due (s := setInputs s rest) hb hp,
      controllerStep_of_illegal (s := setInputs s rest) hd]
    rfl

end Machine

end Sys2Proof

/-! SUPPORT. The codec (40_bitfield_codec.md R120 to R134): when a value fits a mask, the two round trips
of a byte, what PACK and UNPACK do, and what writing fields into an image holds and keeps. A list of
fields is written as one field is: pieces that share no bit are put one after another, and what is put
later keeps what was put before. -/

namespace Sys2Proof.Machine

open Sys2Proof

/-! ### Values and masks (R120) -/

theorem IsLowestBit.ne_zero {m : Byte} {k : Nat} (h : IsLowestBit m k) : m ≠ 0 := by
  rintro rfl
  simp [IsLowestBit] at h

theorem IsLowestBit.eq_lsb {m : Byte} {k : Nat} (h : IsLowestBit m k) : k = lsb m := by
  obtain ⟨hl, hbelow⟩ := lsb_lowest m h.ne_zero
  obtain ⟨hk, hk'⟩ := h
  rcases lt_trichotomy k (lsb m) with hlt | heq | hgt
  · simp [hbelow k hlt] at hk
  · exact heq
  · simp [hk' _ hgt] at hl

theorem IsLowestBit.fits_iff_fitsAt {m : Byte} {k : Nat} (h : IsLowestBit m k) (v : Nat) :
    fits v m = true ↔ FitsAt v m k :=
  h.eq_lsb ▸ fits_iff h.ne_zero v

/-- Every bit of a value that fits a contiguous mask is one of the mask's popcount bits. -/
theorem lt_of_fits {m : Byte} (h0 : m ≠ 0) (hc : contiguous m = true) {v : Nat}
    (hf : fits v m = true) : v < 2 ^ popcount m := by
  refine Nat.lt_pow_two_of_testBit v fun i hi => ?_
  by_contra hv
  have hm := (fits_iff h0 v).1 hf i (Bool.eq_true_of_not_eq_false hv)
  rw [contiguous_getLsbD h0 hc, decide_eq_true_iff] at hm
  omega

/-- Settles O17: `fits` bit by bit, and a contiguous mask by its shape. -/
theorem fitsMask : Obligations.FitsMask :=
  ⟨fun _ => rfl, fun _ v _ hk => ⟨hk.fits_iff_fitsAt v, fun hc =>
    ⟨lt_of_fits hk.ne_zero hc, fits_of_lt hk.ne_zero hc⟩⟩⟩

/-! ### The two round trips (R125) -/

theorem unpack_eq {b m : Byte} (h0 : m ≠ 0) : unpack b m = .ok (unpackBits b m) :=
  if_neg h0

theorem unpackBits_packBits {e m : Byte} {v : Nat} (h0 : m ≠ 0) (hf : fits v m = true) :
    unpackBits (packBits e v m) m = v := by
  apply Nat.eq_of_testBit_eq
  intro i
  rw [unpackBits_testBit, packBits_getLsbD h0 hf]
  cases hm : m.getLsbD (i + lsb m) with
  | true => simp
  | false =>
    have hv : v.testBit i ≠ true := fun hv => by simp [(fits_iff h0 v).1 hf i hv] at hm
    simp [hv]

theorem fits_unpackBits {b m : Byte} (h0 : m ≠ 0) : fits (unpackBits b m) m = true := by
  rw [fits_iff h0]
  intro i hi
  rw [unpackBits_testBit, Bool.and_eq_true] at hi
  exact hi.2

theorem packBits_unpackBits {b m : Byte} (h0 : m ≠ 0) : packBits b (unpackBits b m) m = b := by
  apply BitVec.eq_of_getLsbD_eq
  intro i _
  rw [packBits_getLsbD h0 (fits_unpackBits h0)]
  cases hm : m.getLsbD i with
  | false => simp
  | true =>
    have hle : lsb m ≤ i := by
      by_contra hlt
      simp [(lsb_lowest m h0).2 i (by omega)] at hm
    simp [unpackBits_testBit, Nat.sub_add_cancel hle, hle, hm]

/-- Settles O21: each law is that of the two bytes, taken bit by bit. -/
theorem codecRoundTrips : Obligations.CodecRoundTrips :=
  ⟨fun e m v h0 hf => ⟨packBits e v m, pack_eq h0 hf,
      (unpack_eq h0).trans (congrArg _ (unpackBits_packBits h0 hf))⟩,
    fun b m h0 => ⟨unpackBits b m, unpack_eq h0,
      (pack_eq h0 (fits_unpackBits h0)).trans (congrArg _ (packBits_unpackBits h0))⟩⟩

/-! ### PACK and UNPACK (R123, R124) -/

theorem pack_overflow {e m : Byte} {v : Nat} (h0 : m ≠ 0) (hf : fits v m = false) :
    pack e v m = .error .fieldOverflow := by
  rw [pack, if_neg h0, hf]
  rfl

section commands

variable {s : State} (ha : s.status.abortPending = false)

include ha

theorem exec_pack_ok {mask byte value r : Byte} (h : pack byte value.toNat mask = .ok r) :
    exec (.pack mask byte value) s = .next (finish (setRes0 s (r.setWidth 32)) .none) := by
  rw [exec, execPack, firstStep_runs ha, packRule, h]

theorem exec_pack_error {mask byte value : Byte} {e : ErrCode}
    (h : pack byte value.toNat mask = .error e) :
    exec (.pack mask byte value) s = .next (finish s e) := by
  rw [exec, execPack, firstStep_runs ha, packRule, h]

theorem exec_unpack_ok {mask byte : Byte} {v : Nat} (h : unpack byte mask = .ok v) :
    exec (.unpack mask byte) s = .next (finish (setRes0 s (BitVec.ofNat 32 v)) .none) := by
  rw [exec, execUnpack, firstStep_runs ha, unpackRule, h]

theorem exec_unpack_error {mask byte : Byte} {e : ErrCode} (h : unpack byte mask = .error e) :
    exec (.unpack mask byte) s = .next (finish s e) := by
  rw [exec, execUnpack, firstStep_runs ha, unpackRule, h]

end commands

/-- A byte in a result register has the byte's bits and no others. -/
theorem getLsbD_resultByte (b : Byte) (i : Nat) :
    (b.setWidth 32 : Word).getLsbD i = b.getLsbD i := by
  rw [BitVec.getLsbD_setWidth]
  by_cases hi : i < 32
  · simp [hi]
  · simp [BitVec.getLsbD_of_ge b i (by omega)]

/-- An unpacked value in a result register, bit by bit: it has no bit a byte does not have. -/
theorem getLsbD_ofNat_unpackBits (b m : Byte) (i : Nat) :
    (BitVec.ofNat 32 (unpackBits b m)).getLsbD i =
      (m.getLsbD (i + lsb m) && b.getLsbD (i + lsb m)) := by
  rw [BitVec.getLsbD_ofNat, unpackBits_testBit, Bool.and_comm (b.getLsbD _)]
  by_cases hi : i < 32
  · simp [hi]
  · simp [BitVec.getLsbD_of_ge m (i + lsb m) (by omega)]

/-- Settles O18: the packed byte bit by bit, in RES0. -/
theorem packResult : Obligations.PackResult := by
  intro m b v k s ha hk hf
  have h0 := hk.ne_zero
  have hfits := (hk.fits_iff_fitsAt v.toNat).2 hf
  refine ⟨(packBits b v.toNat m).setWidth 32, exec_pack_ok ha (pack_eq h0 hfits), fun i => ?_⟩
  rw [getLsbD_resultByte, packBits_getLsbD h0 hfits, hk.eq_lsb, BitVec.testBit_toNat]

/-- Settles O19: the unpacked value bit by bit, in RES0. -/
theorem unpackResult : Obligations.UnpackResult := by
  intro m b k s ha hk
  refine ⟨BitVec.ofNat 32 (unpackBits b m), exec_unpack_ok ha (unpack_eq hk.ne_zero), fun i => ?_⟩
  rw [getLsbD_ofNat_unpackBits, hk.eq_lsb]

/-- Settles O20: each refusal of the codec ends its command. -/
theorem codecRefusals : Obligations.CodecRefusals := by
  intro s ha
  refine ⟨fun b v => exec_pack_error ha rfl, fun b => exec_unpack_error ha rfl,
    fun m b v k hk hf => exec_pack_error ha (pack_overflow hk.ne_zero ?_)⟩
  rwa [← hk.fits_iff_fitsAt, Bool.not_eq_true] at hf

/-! ### Pieces, and what is kept outside them (R126, R127) -/

/-- Conditions 1 to 3 of R127 for the pieces `ps` of a block of `n` bytes. -/
structure PiecesOk (n : Nat) (ps : List Piece) : Prop where
  masks     : masksOk ps = true
  noOverlap : piecesDisjoint ps = true
  offsets   : offsetsOk n ps = true

/-- `new` has every bit of `old` that belongs to no piece of `ps`. -/
def KeptOutside {n : Nat} (ps : List Piece) (old new : Vector Byte n) : Prop :=
  ∀ i j, (∀ p ∈ ps, p.off = i → p.mask.getLsbD j = false) →
    (imgByte new i).getLsbD j = (imgByte old i).getLsbD j

section images

variable {n : Nat} {ps qs : List Piece} {x y z : Vector Byte n}

theorem PiecesOk.head {p : Piece} (h : PiecesOk n (p :: ps)) :
    p.mask ≠ 0 ∧ contiguous p.mask = true ∧ p.off < n := by
  obtain ⟨hm, -, ho⟩ := h
  simp only [masksOk, List.all_cons, Bool.and_eq_true, bne_iff_ne] at hm
  simp only [offsetsOk, List.all_cons, Bool.and_eq_true, decide_eq_true_eq] at ho
  exact ⟨hm.1.1, hm.1.2, ho.1⟩

theorem PiecesOk.of_append (h : PiecesOk n (ps ++ qs)) :
    PiecesOk n ps ∧ PiecesOk n qs ∧ ∀ p ∈ ps, ∀ q ∈ qs, disjoint p q = true := by
  obtain ⟨hm, hd, ho⟩ := h
  simp only [masksOk_append, Bool.and_eq_true] at hm
  simp only [offsetsOk, List.all_append, Bool.and_eq_true] at ho
  obtain ⟨hps, hqs, hdisj⟩ := piecesDisjoint_append hd
  exact ⟨⟨hm.1, hps, ho.1⟩, ⟨hm.2, hqs, ho.2⟩, hdisj⟩

theorem KeptOutside.refl (ps : List Piece) (x : Vector Byte n) : KeptOutside ps x x :=
  fun _ _ _ => rfl

theorem KeptOutside.trans (h : KeptOutside ps x y) (k : KeptOutside qs y z) :
    KeptOutside (ps ++ qs) x z := fun i j hij =>
  (k i j fun q hq => hij q (List.mem_append_right _ hq)).trans
    (h i j fun p hp => hij p (List.mem_append_left _ hp))

/-- What keeps the bits outside `qs` keeps every field that shares no bit with `qs`. -/
theorem KeptOutside.getField_eq (h : KeptOutside qs x y)
    (hd : ∀ p ∈ ps, ∀ q ∈ qs, disjoint p q = true) : getField y ps = getField x ps :=
  getField_congr ps fun p hp _ hj =>
    h _ _ fun q hq ho => disjoint_bits (hd p hp q hq) ho.symm hj

/-- Packing a value into one byte of an image keeps every bit that is not of the piece. -/
theorem keptOutside_packByte (x : Vector Byte n) {p : Piece} {v : Nat} (ho : p.off < n)
    (h0 : p.mask ≠ 0) (hf : fits v p.mask = true) :
    KeptOutside [p] x (x.setIfInBounds p.off (packBits (imgByte x p.off) v p.mask)) := by
  intro i j hij
  rw [imgByte_setIfInBounds x i _ ho]
  split_ifs with hi
  · rw [packBits_getLsbD h0 hf, hij p List.mem_cons_self hi, ← hi]
    rfl
  · rfl

theorem getField_packByte (x : Vector Byte n) {p : Piece} {v : Nat} (ho : p.off < n)
    (h0 : p.mask ≠ 0) (hf : fits v p.mask = true) :
    getField (x.setIfInBounds p.off (packBits (imgByte x p.off) v p.mask)) [p] = v := by
  simp [getField, imgByte_setIfInBounds x p.off _ ho, unpackBits_packBits h0 hf]

theorem getField_cons (x : Vector Byte n) (p : Piece) (ps : List Piece) :
    getField x (p :: ps) = getField x [p] + getField x ps <<< popcount p.mask := by
  simp [getField]

/-! ### PutField (R126) -/

/-- The loop of PutField holds the value and keeps every bit outside the pieces: the first piece takes the
lowest bits, which the later pieces keep. -/
theorem putPieces_written (hw : PiecesOk n ps) (x : Vector Byte n) {v : Nat}
    (hv : v < 2 ^ width ps) :
    ∃ out, putPieces x ps v = .ok out ∧ getField out ps = v ∧ KeptOutside ps x out := by
  induction ps generalizing x v with
  | nil =>
    have hv0 : v = 0 := by simpa [width] using hv
    exact ⟨x, rfl, hv0.symm, .refl [] x⟩
  | cons p ps ih =>
    obtain ⟨h0, hc, ho⟩ := hw.head
    obtain ⟨-, hps, hdisj⟩ := PiecesOk.of_append (ps := [p]) hw
    have hf : fits (v % 2 ^ popcount p.mask) p.mask = true :=
      fits_of_lt h0 hc (Nat.mod_lt _ (Nat.two_pow_pos _))
    have hrest : v >>> popcount p.mask < 2 ^ width ps := by
      rw [Nat.shiftRight_eq_div_pow, Nat.div_lt_iff_lt_mul (Nat.two_pow_pos _), ← Nat.pow_add,
        Nat.add_comm]
      exact hv
    obtain ⟨out, hput, hget, hkept⟩ := ih hps (x.setIfInBounds p.off
      (packBits (imgByte x p.off) (v % 2 ^ popcount p.mask) p.mask)) hrest
    refine ⟨out, ?_, ?_, (keptOutside_packByte x ho h0 hf).trans hkept⟩
    · rw [putPieces, pack_eq h0 hf]
      exact hput
    · rw [getField_cons, hkept.getField_eq hdisj, getField_packByte x ho h0 hf, hget,
        Nat.shiftLeft_eq, Nat.shiftRight_eq_div_pow, Nat.mul_comm, Nat.mod_add_div]

theorem putField_written (hw : PiecesOk n ps) (x : Vector Byte n) {v : Nat}
    (hv : v < 2 ^ width ps) :
    ∃ out, putField x ps v = .ok out ∧ getField out ps = v ∧ KeptOutside ps x out := by
  rw [putField, if_neg (Nat.not_le.2 hv)]
  exact putPieces_written hw x hv

/-! ### Fields put one after another (R130, R132) -/

/-- The fields put into an image in their order, each with its value. -/
def putFields (img : Vector Byte n) (fields : List (List Piece × Nat)) :
    Except ErrCode (Vector Byte n) :=
  fields.foldl (fun x f => thenPut x f.1 f.2) (.ok img)

theorem encodeDiv_eq_putFields (m : DivMap) (img : DivImage) (r : DividerSet) (cp : BitVec 3) :
    encodeDiv m img r cp = putFields img (divFields m r cp) := rfl

theorem putFields_cons {f : List Piece × Nat} (h : putField x f.1 f.2 = .ok y)
    (fields : List (List Piece × Nat)) : putFields x (f :: fields) = putFields y fields := by
  rw [putFields, List.foldl_cons, thenPut, h, putFields]

theorem fieldsWritten_of_keptOutside {fields : List (List Piece × Nat)}
    (hget : ∀ f ∈ fields, getField y f.1 = f.2)
    (hkept : KeptOutside (fields.flatMap Prod.fst) x y) : FieldsWritten x y fields := by
  refine ⟨hget, fun i j hi _ hij => ?_⟩
  rw [← imgByte_getElem y hi, ← imgByte_getElem x hi]
  refine hkept i j fun p hp => ?_
  obtain ⟨f, hf, hpf⟩ := List.mem_flatMap.1 hp
  exact hij f hf p hpf

/-- Fields whose pieces share no bit hold their values once all are put, and the bits of no field are
kept. -/
theorem putFields_written {fields : List (List Piece × Nat)}
    (hw : PiecesOk n (fields.flatMap Prod.fst)) (hv : ∀ f ∈ fields, f.2 < 2 ^ width f.1)
    (x : Vector Byte n) :
    ∃ out, putFields x fields = .ok out ∧ (∀ f ∈ fields, getField out f.1 = f.2) ∧
      KeptOutside (fields.flatMap Prod.fst) x out := by
  induction fields generalizing x with
  | nil => exact ⟨x, rfl, by simp, .refl [] x⟩
  | cons f fields ih =>
    obtain ⟨hf, hfs, hdisj⟩ := PiecesOk.of_append hw
    obtain ⟨hvf, hvs⟩ := List.forall_mem_cons.1 hv
    obtain ⟨mid, hput, hget, hkept⟩ := putField_written hf x hvf
    obtain ⟨out, hputs, hgets, hkepts⟩ := ih hfs hvs mid
    exact ⟨out, (putFields_cons hput fields).trans hputs,
      List.forall_mem_cons.2 ⟨(hkepts.getField_eq hdisj).trans hget, hgets⟩, hkept.trans hkepts⟩

end images

/-- Settles O22: the loop of PutField writes a value below 2^width, and its check refuses a wider one. -/
theorem putFieldWritesOnlyItsField : Obligations.PutFieldWritesOnlyItsField := by
  intro n img field v hm hd ho
  refine ⟨fun hv => ?_, fun hv => if_pos hv⟩
  obtain ⟨out, hput, hget, hkept⟩ := putField_written ⟨hm, hd, ho⟩ img hv
  exact ⟨out, hput, fieldsWritten_of_keptOutside (by simpa using hget) (by simpa using hkept)⟩

/-! ### The divider image (R130, R131, R133) -/

theorem divFields_pieces (m : DivMap) (r : DividerSet) (cp : BitVec 3) :
    (divFields m r cp).flatMap Prod.fst = divPieces m := by
  simp [divFields, divPieces]

theorem divFields_lt {m : DivMap} (hw : divWidthsOk m = true) (r : DividerSet) (cp : BitVec 3) :
    ∀ f ∈ divFields m r cp, f.2 < 2 ^ width f.1 := by
  simp only [divWidthsOk, Bool.and_eq_true, beq_iff_eq] at hw
  obtain ⟨⟨⟨hod, hfi⟩, hff⟩, hcp⟩ := hw
  simp only [divFields, List.forall_mem_cons, hod, hfi, hff, hcp]
  exact ⟨r.outputDivider.isLt, r.feedbackInt.isLt, r.feedbackFrac.isLt, cp.isLt, by simp⟩

theorem divMapOk_pieces {m : DivMap} (hm : divMapOk m = true) :
    PiecesOk 6 (divPieces m) ∧ divWidthsOk m = true := by
  simp only [divMapOk, Bool.and_eq_true] at hm
  obtain ⟨⟨⟨hmasks, hdisj⟩, hoff⟩, hwidths⟩ := hm
  exact ⟨⟨hmasks, hdisj, hoff⟩, hwidths⟩

/-- Settles O23: the four fields of the divider block are put one after another, and their pieces share no
bit. -/
theorem dividerImageRoundTrip : Obligations.DividerImageRoundTrip := by
  intro m img r cp hm
  obtain ⟨hpieces, hwidths⟩ := divMapOk_pieces hm
  rw [← divFields_pieces m r cp] at hpieces
  obtain ⟨out, hput, hget, hkept⟩ := putFields_written hpieces (divFields_lt hwidths r cp) img
  refine ⟨out, (encodeDiv_eq_putFields m img r cp).trans hput, ?_,
    fieldsWritten_of_keptOutside hget hkept⟩
  simp only [divFields, List.forall_mem_cons] at hget
  obtain ⟨hod, hfi, hff, hcp, -⟩ := hget
  rw [decodeDiv, hod, hfi, hff, hcp]

end Sys2Proof.Machine

/-! SUPPORT. The divider solver (41_divider_solver.md R140 to R154): what the integer search found when it
ends at an exact divider, when it reaches one, and when it stalls; the two rounding tests of the fallback
as one condition; and the SOLVE command by its operands. -/

namespace Sys2Proof.Machine

open Sys2Proof

/-- Settles O24: the bounds and the exact VCO frequency of a solution. -/
theorem solveWithinBounds : Obligations.SolveWithinBounds := by
  intro req ref dd r mode h
  obtain ⟨hb, hv, hf⟩ := solveDividers_sound h
  obtain ⟨ho, ho', hn, hn', hlo, hhi⟩ := (dividerBounds_iff r).1 hb
  exact ⟨ho, ho', hn, hn', hlo, hhi, hv, hf⟩

/-! ### The integer search (R142 to R145) -/

/-- The VCO frequency at the initial guess is above FVCO_MIN (R142). -/
theorem fvcoMin_lt_firstDivider {req : Nat} (hr : 0 < req) : 6860000000 < req * firstDivider req := by
  rw [firstDivider_eq, Nat.add_comm]
  exact Nat.lt_mul_div_succ _ hr

/-- Everything a solution can come from: the exact end of the search, or the fallback. -/
theorem solveDividers_some {req ref : Nat} {dd : Bool} {r : DividerSet} {mode : SolveMode}
    (h : solveDividers req ref dd = some (r, mode)) :
    (∃ od n vco,
      search req (pfdOf ref dd) (511 - firstDivider req) (firstDivider req) = .exact od n vco ∧
        checkSolution od n 0 vco .integer = some (r, mode)) ∨
      fallback req (pfdOf ref dd) = some (r, mode) := by
  rw [solveDividers_eq] at h
  split at h
  · cases h
  · rename_i od n vco hs
    exact .inl ⟨od, n, vco, hs, h⟩
  · exact .inr h

/-- The search ends at the first exact divider from where it starts (R143, R144). -/
theorem search_exact_first {req pfd fuel : Nat} : ∀ {d od n vco : Nat},
    search req pfd fuel d = .exact od n vco →
    d ≤ od ∧ od < 511 ∧ n * pfd = req * od ∧ ∀ o, d ≤ o → o < od → ¬ pfd ∣ req * o := by
  induction fuel with
  | zero => intro d od n vco h; cases h
  | succ fuel ih =>
    intro d od n vco h
    rw [search_succ] at h
    split_ifs at h with hd _ _ _ hrem
    · cases h
      exact ⟨le_rfl, hd, Nat.div_mul_cancel (Nat.dvd_of_mod_eq_zero hrem),
        fun o hle hlt => absurd hlt (Nat.not_lt.2 hle)⟩
    · obtain ⟨hle, hmax, hn, hfirst⟩ := ih h
      refine ⟨by omega, hmax, hn, fun o ho hlt => ?_⟩
      rcases Nat.eq_or_lt_of_le ho with rfl | hgt
      · exact fun hdvd => hrem (Nat.mod_eq_zero_of_dvd hdvd)
      · exact hfirst o hgt hlt

/-- Settles O25: an INTEGER result is one the search ended at. -/
theorem solveIntegerIsFirstExact : Obligations.SolveIntegerIsFirstExact := by
  rintro req ref dd r _ rfl h
  obtain ⟨od, n, vco, hs, hc⟩ | hf := solveDividers_some h
  · obtain ⟨-, ho, hn, hfrac, -⟩ := checkSolution_some hc
    rw [ho, hn]
    obtain ⟨hle, hlt, hexact, hfirst⟩ := search_exact_first hs
    exact ⟨hle, hlt, hexact, BitVec.eq_of_toNat_eq hfrac, hfirst⟩
  · cases (checkSolution_some hf).1

/-- An iteration whose VCO frequency and quotient are within the bounds accepts an exact divider, and goes
on past any other (R144). -/
theorem search_inBounds {req pfd d : Nat} (fuel : Nat) (hd : d < 511) (hv : req * d ≤ 8650000000)
    (hlo : 41 * pfd ≤ req * d) (hhi : req * d < 217 * pfd) : search req pfd (fuel + 1) d =
      if pfd ∣ req * d then .exact d (req * d / pfd) (req * d) else search req pfd fuel (d + 1) := by
  have hp : 0 < pfd := by omega
  have hn : ¬ req * d / pfd < 41 := Nat.not_lt.2 ((Nat.le_div_iff_mul_le hp).2 hlo)
  have hn' : ¬ req * d / pfd > 216 := by
    rw [gt_iff_lt, Nat.not_lt, ← Nat.lt_succ_iff, Nat.div_lt_iff_lt_mul hp]
    exact hhi
  rw [search_succ, if_pos hd, if_neg (Nat.not_lt.2 hv), if_neg hn, if_neg hn']
  simp only [Nat.dvd_iff_mod_eq_zero]

/-- The search reaches the first exact divider when no bound stops it before (R143, R144). -/
theorem search_finds {req pfd od : Nat} (hmax : od < 511) (hdvd : pfd ∣ req * od)
    (hv : req * od ≤ 8650000000) (hhi : req * od < 217 * pfd) {fuel : Nat} : ∀ {d : Nat},
    d ≤ od → od < d + fuel → 41 * pfd ≤ req * d → (∀ o, d ≤ o → o < od → ¬ pfd ∣ req * o) →
    search req pfd fuel d = .exact od (req * od / pfd) (req * od) := by
  induction fuel with
  | zero => intro d hle hlt; omega
  | succ fuel ih =>
    intro d hle hfuel hlo hfirst
    have hmono : req * d ≤ req * od := Nat.mul_le_mul_left req hle
    rw [search_inBounds fuel (by omega) (by omega) hlo (by omega)]
    rcases Nat.eq_or_lt_of_le hle with rfl | hlt
    · exact if_pos hdvd
    · rw [if_neg (hfirst d le_rfl hlt)]
      exact ih hlt (by omega) (hlo.trans (Nat.mul_le_mul_left req d.le_succ))
        fun o ho => hfirst o (by omega)

/-- Settles O27: the search reaches `od`, and the candidate passes its check. -/
theorem solveFindsFirstExact : Obligations.SolveFindsFirstExact := by
  rintro req ref dd pfd od hpfd hr hp ho4 hle hmax hdvd hfirst hlo hv hhi
  obtain rfl : pfd = pfdOf ref dd := hpfd
  rw [← firstDivider_eq] at hle hfirst hlo
  have hmono : req * firstDivider req ≤ req * od := Nat.mul_le_mul_left req hle
  have hmin := fvcoMin_lt_firstDivider hr
  have hn : 41 ≤ req * od / pfdOf ref dd := (Nat.le_div_iff_mul_le hp).2 (hlo.trans hmono)
  have hn' : req * od / pfdOf ref dd < 217 := (Nat.div_lt_iff_lt_mul hp).2 hhi
  rw [solveDividers_eq, search_finds hmax hdvd hv hhi hle (by omega) hlo hfirst]
  dsimp only
  rw [checkSolution_eq, if_pos (by omega)]
  rfl

/-- The first iteration stalls when pfd is too high for the VCO frequency of the guess (R145). -/
theorem search_stalls {req pfd d fuel : Nat} (hf : 0 < fuel) (hd : d < 511)
    (hv : req * d ≤ 8650000000) (hlt : req * d < 41 * pfd) : search req pfd fuel d = .stall := by
  obtain ⟨fuel, rfl⟩ := Nat.exists_eq_succ_of_ne_zero hf.ne'
  rw [search_succ, if_pos hd, if_neg (Nat.not_lt.2 hv),
    if_pos ((Nat.div_lt_iff_lt_mul (by omega)).2 hlt)]

/-- The highest VCO frequency of an initial guess in the envelope, reached at 1_715_000_000 Hz (R153). -/
theorem firstDivider_vco_le {req : Nat} (hlo : 16000000 ≤ req) (hhi : req ≤ 2100000000) :
    firstDivider req < 511 ∧ req * firstDivider req ≤ 8575000000 := by
  rw [firstDivider_eq]
  have hq : 6860000000 / req < 430 := (Nat.div_lt_iff_lt_mul (by omega)).2 (by omega)
  have hmul : req * (6860000000 / req) ≤ 6860000000 := Nat.mul_div_le _ _
  refine ⟨by omega, ?_⟩
  rw [Nat.mul_add, Nat.mul_one]
  by_cases h : req ≤ 1715000000
  · omega
  · have hq3 : 6860000000 / req ≤ 3 :=
      Nat.lt_succ_iff.1 ((Nat.div_lt_iff_lt_mul (by omega)).2 (by omega))
    have hmul3 : req * (6860000000 / req) ≤ req * 3 := Nat.mul_le_mul_left req hq3
    omega

/-- Settles O28: 41 times the doubled reference is above every VCO frequency of an initial guess. -/
theorem solveStallsOnHighReference : Obligations.SolveStallsOnHighReference := by
  intro req ref hlo hhi href
  obtain ⟨hd, hv⟩ := firstDivider_vco_le hlo hhi
  have hpfd : pfdOf ref false = ref * 2 := rfl
  rw [solveDividers_eq, search_stalls (by omega) hd (by omega) (by omega)]

/-! ### The fallback (R146, R147) -/

/-- The first rounding test (R147). -/
theorem five_le_rem_iff {pfd : Nat} (hp : 0 < pfd) (rem : Nat) :
    rem * 10 / pfd ≥ 5 ↔ 2 * rem ≥ pfd := by
  rw [ge_iff_le, Nat.le_div_iff_mul_le hp]
  omega

/-- The truncated fractional part is at least one half exactly when the remainder is (R147). -/
theorem half_le_truncatedFrac_iff {pfd : Nat} (hp : 0 < pfd) (vco : Nat) :
    2 ^ 23 ≤ truncatedFrac vco pfd ↔ 2 * (vco % pfd) ≥ pfd := by
  rw [truncatedFrac_eq, Nat.le_div_iff_mul_le hp]
  omega

/-- frac after its rounding, by the one condition of R147. -/
theorem roundedFrac_eq {pfd : Nat} (hp : 0 < pfd) (vco : Nat) : roundedFrac vco pfd =
    if 2 * (vco % pfd) ≥ pfd then truncatedFrac vco pfd + 1 else truncatedFrac vco pfd :=
  if_congr (five_le_rem_iff hp _) rfl rfl

/-- The second rounding test reads the rounded frac, and still is the one condition of R147. -/
theorem five_le_roundedFrac_iff {pfd : Nat} (hp : 0 < pfd) (vco : Nat) :
    (roundedFrac vco pfd * 10) >>> 24 ≥ 5 ↔ 2 * (vco % pfd) ≥ pfd := by
  have hhalf := half_le_truncatedFrac_iff hp vco
  rw [roundedFrac_eq hp, Nat.shiftRight_eq_div_pow]
  split_ifs <;> omega

/-- n after its rounding, by the one condition of R147. -/
theorem carriedInt_eq_of_pos {pfd : Nat} (hp : 0 < pfd) (vco : Nat) : carriedInt vco pfd =
    if 2 * (vco % pfd) ≥ pfd then vco / pfd + 1 else vco / pfd := by
  rw [carriedInt_eq]
  exact if_congr (five_le_roundedFrac_iff hp vco) rfl rfl

/-- Dividing by a pfd of 0 gives 0, and no test rounds it up. -/
theorem carriedInt_zero (vco : Nat) : carriedInt vco 0 = 0 := by
  simp [carriedInt, roundedFrac, truncatedFrac]

/-- Settles O26: a FRACTIONAL result comes from the fallback, whose pfd is not 0 since its n is at least
DIVN_MIN. -/
theorem solveFractionalRounding : Obligations.SolveFractionalRounding := by
  rintro req ref dd r pfd _ _ hpfd rfl rfl h
  obtain rfl : pfd = pfdOf ref dd := hpfd
  obtain ⟨od, n, vco, -, hc⟩ | hf := solveDividers_some h
  · cases (checkSolution_some hc).1
  · obtain ⟨-, ho, hn, hfrac, hv, -, -, hn41, -⟩ := checkSolution_some hf
    have hp : 0 < pfdOf ref dd := by
      refine Nat.pos_of_ne_zero fun h0 => ?_
      rw [h0, carriedInt_zero] at hn41
      omega
    rw [carriedInt_eq_of_pos hp] at hn
    rw [roundedFrac_eq hp, truncatedFrac_eq] at hfrac
    refine ⟨ho, hv, fun hge => ?_, fun hlt => ?_⟩
    · rw [hn, hfrac]
      exact ⟨if_pos hge, if_pos hge⟩
    · rw [hn, hfrac]
      exact ⟨if_neg (Nat.not_le.2 hlt), if_neg (Nat.not_le.2 hlt)⟩

/-! ### The SOLVE command (R152) -/

/-- ARG2[31:1] is 0 exactly for the operands 0 and 1. -/
theorem extractLsb'_upper_eq_zero_iff (w : Word) : w.extractLsb' 1 31 = 0 ↔ w.toNat < 2 := by
  rw [← BitVec.toNat_inj, BitVec.extractLsb'_toNat, Nat.shiftRight_eq_div_pow]
  have hw := w.isLt
  simp only [BitVec.ofNat_eq_ofNat, BitVec.toNat_ofNat]
  omega

/-- ARG2[0] of an operand that is 0 or 1. -/
theorem getLsbD_zero_of_lt_two {w : Word} (h : w.toNat < 2) : w.getLsbD 0 = decide (w = 1) := by
  rw [← BitVec.testBit_toNat, Nat.testBit_zero, decide_eq_decide, ← BitVec.toNat_inj]
  simp only [BitVec.ofNat_eq_ofNat, BitVec.toNat_ofNat]
  omega

/-- SOLVE refuses an operand of its own exactly when ARG2[31:1] is not 0 or ARG0 or ARG1 is 0. -/
theorem solve_illegal_iff (s : State) :
    (s.hidden.latch.a2.extractLsb' 1 31 ≠ 0 ∨ argA0 s = 0 ∨ argA1 s = 0) ↔
      2 ≤ s.hidden.latch.a2.toNat ∨ s.hidden.latch.a0 = 0 ∨ s.hidden.latch.a1 = 0 := by
  rw [ne_eq, extractLsb'_upper_eq_zero_iff, Nat.not_lt]
  exact or_congr_right (or_congr (BitVec.toNat_inj (y := 0)) (BitVec.toNat_inj (y := 0)))

section solve

variable {s : State} (ha : s.status.abortPending = false)

include ha

theorem exec_solve_illegal (h : 2 ≤ s.hidden.latch.a2.toNat ∨ s.hidden.latch.a0 = 0 ∨
    s.hidden.latch.a1 = 0) : exec .solve s = .next (finish s .illegalOperand) := by
  rw [exec, execSolve, firstStep_runs ha, solveRule, if_pos ((solve_illegal_iff s).2 h)]

variable (hl : ¬ (2 ≤ s.hidden.latch.a2.toNat ∨ s.hidden.latch.a0 = 0 ∨ s.hidden.latch.a1 = 0))

include hl

theorem exec_solve_none (h : solveDividers s.hidden.latch.a0.toNat s.hidden.latch.a1.toNat
      (decide (s.hidden.latch.a2 = 1)) = none) :
    exec .solve s = .next (finish s .noDividerSolution) := by
  rw [← getLsbD_zero_of_lt_two (by omega)] at h
  rw [exec, execSolve, firstStep_runs ha, solveRule, if_neg (mt (solve_illegal_iff s).1 hl),
    argA0, argA1, h]

theorem exec_solve_some {r : DividerSet} {mode : SolveMode}
    (h : solveDividers s.hidden.latch.a0.toNat s.hidden.latch.a1.toNat
      (decide (s.hidden.latch.a2 = 1)) = some (r, mode)) :
    exec .solve s = .next (finish (setRes3 (setRes2 (setRes1 (setRes0 s (divNoWord r))
      (solveFracWord r mode)) (vcoLoWord r)) (vcoHiWord r)) .none) := by
  rw [← getLsbD_zero_of_lt_two (by omega)] at h
  rw [exec, execSolve, firstStep_runs ha, solveRule, if_neg (mt (solve_illegal_iff s).1 hl),
    argA0, argA1, h]

end solve

/-- Settles O29: the three ways SOLVE ends, and its result words as naturals. -/
theorem solveCommand : Obligations.SolveCommand := by
  rintro s _ rfl ha
  refine ⟨exec_solve_illegal ha, fun h2 h0 h1 => ?_⟩
  have hl : ¬ (2 ≤ s.hidden.latch.a2.toNat ∨ s.hidden.latch.a0 = 0 ∨ s.hidden.latch.a1 = 0) :=
    not_or.2 ⟨Nat.not_le.2 h2, not_or.2 ⟨h0, h1⟩⟩
  exact ⟨exec_solve_none ha hl, fun r mode h => ⟨_, _, _, _, exec_solve_some ha hl h,
    divNoWord_toNat r, solveFracWord_toNat r mode, vcoWords_toNat r⟩⟩

end Sys2Proof.Machine

/-! SUPPORT. The SELECT_CP command (42_charge_pump.md R170 to R172): its next state by its operand, and the
code it leaves in RES0 by the operand's range. -/

namespace Sys2Proof.Machine

open Sys2Proof

/-- SELECT_CP that is not aborted completes at once, its operand `{ARG1, ARG0}` read as one number (R171). -/
theorem exec_selectCp {s : State} (ha : s.status.abortPending = false) :
    exec .selectCp s = .next (finish (setRes0 s ((selectChargePump
      (s.hidden.latch.a0.toNat + 2 ^ 32 * s.hidden.latch.a1.toNat)).setWidth 32)) .none) := by
  rw [exec, execSelectCp, firstStep_runs ha, selectCpRule, argVco_eq]

/-- The four ranges of R170; a breakpoint belongs to the range above it (R172). -/
theorem selectChargePump_ranges (vco : Nat) :
    (vco < 7000000000 → selectChargePump vco = 5) ∧
    (7000000000 ≤ vco → vco < 7400000000 → selectChargePump vco = 4) ∧
    (7400000000 ≤ vco → vco < 7800000000 → selectChargePump vco = 3) ∧
    (7800000000 ≤ vco → selectChargePump vco = 2) := by
  rw [selectChargePump_eq]
  refine ⟨fun h => if_pos h, fun hge hlt => ?_, fun hge hlt => ?_, fun hge => ?_⟩
  · rw [if_neg (by omega), if_pos hlt]
  · rw [if_neg (by omega), if_neg (by omega), if_pos hlt]
  · rw [if_neg (by omega), if_neg (by omega), if_neg (by omega)]

/-- Settles O30: SELECT_CP leaves the code of its operand's range in RES0. -/
theorem selectCpResult : Obligations.SelectCpResult := by
  rintro s vco ha rfl
  obtain ⟨h5, h4, h3, h2⟩ :=
    selectChargePump_ranges (s.hidden.latch.a0.toNat + 2 ^ 32 * s.hidden.latch.a1.toNat)
  exact ⟨_, exec_selectCp ha, fun h => congrArg (BitVec.setWidth 32) (h5 h),
    fun hge hlt => congrArg (BitVec.setWidth 32) (h4 hge hlt),
    fun hge hlt => congrArg (BitVec.setWidth 32) (h3 hge hlt),
    fun hge => congrArg (BitVec.setWidth 32) (h2 hge)⟩

end Sys2Proof.Machine

/-! SUPPORT. The XO trim table (43_xo_trim.md R180 to R182): the tuple of each band, and the next state of
XO_LOOKUP by what the table gives. -/

namespace Sys2Proof.Machine

open Sys2Proof

/-- The XO word of the band-1 tuple (R181). -/
theorem xoWord_xoBand1Tuple : xoWord Config.xoBand1Tuple = 0x023C0122 := by decide

/-- A reference from 40 MHz to 80 MHz is in band 1, both edges included (R180). -/
theorem xoTrimOf_band1 {ref : Nat} (hlo : 40000000 ≤ ref) (hhi : ref ≤ 80000000) :
    xoTrimOf ref = some Config.xoBand1Tuple := by
  rw [xoTrimOf_eq, if_pos ⟨hlo, hhi⟩]

/-- A reference from 100 MHz up to, but not at, 140 MHz is in band 2 (R180). -/
theorem xoTrimOf_band2 {ref : Nat} (hlo : 100000000 ≤ ref) (hhi : ref < 140000000) :
    xoTrimOf ref = some Config.xoBand2Tuple := by
  rw [xoTrimOf_eq, if_neg (by omega), if_pos ⟨hlo, hhi⟩]

/-- A reference from 140 MHz to 166 MHz is in band 3, both edges included (R180). -/
theorem xoTrimOf_band3 {ref : Nat} (hlo : 140000000 ≤ ref) (hhi : ref ≤ 166000000) :
    xoTrimOf ref = some Config.xoBand3Tuple := by
  rw [xoTrimOf_eq, if_neg (by omega), if_neg (by omega), if_pos ⟨hlo, hhi⟩]

/-- A reference below band 1, between bands 1 and 2 or above band 3 has no tuple (R180). -/
theorem xoTrimOf_outside {ref : Nat}
    (h : ref < 40000000 ∨ (80000000 < ref ∧ ref < 100000000) ∨ 166000000 < ref) :
    xoTrimOf ref = none := by
  rw [xoTrimOf_eq, if_neg (by omega), if_neg (by omega), if_neg (by omega)]

/-- XO_LOOKUP of a reference the table has leaves the XO word of its tuple in RES0 (R182). -/
theorem exec_xoLookup_some {s : State} (ha : s.status.abortPending = false) {t : XoSettings}
    (ht : xoTrimOf s.hidden.latch.a0.toNat = some t) :
    exec .xoLookup s = .next (finish (setRes0 s (xoWord t)) .none) := by
  rw [exec, execXoLookup, firstStep_runs ha, xoLookupRule, argA0, ht]

/-- XO_LOOKUP of a reference the table lacks fails (R182). -/
theorem exec_xoLookup_none {s : State} (ha : s.status.abortPending = false)
    (ht : xoTrimOf s.hidden.latch.a0.toNat = none) :
    exec .xoLookup s = .next (finish s .unsupportedReference) := by
  rw [exec, execXoLookup, firstStep_runs ha, xoLookupRule, argA0, ht]

/-- Settles O31: the table's answer for the operand's band decides how XO_LOOKUP ends. -/
theorem xoLookupResult : Obligations.XoLookupResult := by
  rintro s _ ha rfl
  refine ⟨fun w hw => ?_, fun h => exec_xoLookup_none ha (xoTrimOf_outside h)⟩
  obtain ⟨hlo, hhi, rfl⟩ | ⟨hlo, hhi, rfl⟩ | ⟨hlo, hhi, rfl⟩ := hw
  · rw [← xoWord_xoBand1Tuple]
    exact exec_xoLookup_some ha (xoTrimOf_band1 hlo hhi)
  · exact exec_xoLookup_some ha (xoTrimOf_band2 hlo hhi)
  · exact exec_xoLookup_some ha (xoTrimOf_band3 hlo hhi)

end Sys2Proof.Machine

/-! SUPPORT. The XO word (43_xo_trim.md R183): its bits and its natural by the fields of the trim tuple,
and that XoWord and XoTuple are inverse up to the reserved bits. -/

namespace Sys2Proof.Machine

open Sys2Proof

/-- Each bit of an XO word (R183). -/
theorem xoWord_getLsbD (t : XoSettings) {j : Nat} (hj : j < 32) : (xoWord t).getLsbD j =
    if j < 1 then t.doublerDisabled else if j < 2 then t.overtoneDisabled
    else if j < 4 then false else if j < 8 then t.amplifierGm.getLsbD (j - 4)
    else if j < 12 then t.ampSlice.getLsbD (j - 8)
    else if j < 16 then t.overtoneResistor.getLsbD (j - 12)
    else if j < 24 then t.capX1.getLsbD (j - 16) else t.capX2.getLsbD (j - 24) := by
  simp only [xoWord, BitVec.getLsbD_setWidth, BitVec.getLsbD_append]
  interval_cases j <;> simp

/-- The tuple an XO word reads as is the one it was built from. -/
theorem xoTuple_xoWord (t : XoSettings) : xoTuple (xoWord t) = t := by
  have bit := fun j hj => xoWord_getLsbD t (j := j) hj
  obtain ⟨dd, gm, x1, slice, x2, od, res⟩ := t
  rw [xoTuple, XoSettings.mk.injEq]
  refine ⟨bit 0 (by decide), extractLsb'_eq_of_bits fun j hj => ?_,
    extractLsb'_eq_of_bits fun j hj => ?_, extractLsb'_eq_of_bits fun j hj => ?_,
    extractLsb'_eq_of_bits fun j hj => ?_, bit 1 (by decide),
    extractLsb'_eq_of_bits fun j hj => ?_⟩
  all_goals rw [bit _ (by omega)]; interval_cases j <;> rfl

/-- Bits [3:2] of an XO word built from a tuple are 0. -/
theorem xoReserved_xoWord (t : XoSettings) : xoReserved (xoWord t) = 0 :=
  extractLsb'_eq_of_bits fun j hj => by
    rw [xoWord_getLsbD t (by omega)]; interval_cases j <;> rfl

/-- The word of the tuple a word reads as is that word with bits [3:2] cleared. -/
theorem xoWord_xoTuple (w : Word) : xoWord (xoTuple w) = w &&& 0xFFFFFFF3 := by
  apply BitVec.eq_of_getLsbD_eq
  intro j hj
  rw [xoWord_getLsbD _ hj, xoTuple, BitVec.getLsbD_and]
  interval_cases j <;> simp

/-- An XO word as a natural: where each field stands (R183). -/
theorem xoWord_toNat (t : XoSettings) : (xoWord t).toNat =
    t.doublerDisabled.toNat + 2 * t.overtoneDisabled.toNat + 2 ^ 4 * t.amplifierGm.toNat +
      2 ^ 8 * t.ampSlice.toNat + 2 ^ 12 * t.overtoneResistor.toNat + 2 ^ 16 * t.capX1.toNat +
      2 ^ 24 * t.capX2.toNat := by
  have hdd := t.doublerDisabled.toNat_lt
  have hod := t.overtoneDisabled.toNat_lt
  have hgm := t.amplifierGm.isLt
  have hslice := t.ampSlice.isLt
  have hres := t.overtoneResistor.isLt
  have hx1 := t.capX1.isLt
  have hx2 := t.capX2.isLt
  simp only [xoWord, BitVec.toNat_setWidth, toNat_append_add, BitVec.ofNat_eq_ofNat,
    BitVec.toNat_ofNat, BitVec.toNat_ofBool]
  omega

/-- Settles O32, from the bits of the XO word and its natural. -/
theorem xoWordRoundTrip : Obligations.XoWordRoundTrip :=
  ⟨fun t => ⟨xoTuple_xoWord t, xoReserved_xoWord t⟩, xoWord_xoTuple, xoWord_toNat⟩

end Sys2Proof.Machine

/-! SUPPORT. A command word written to CMD (44_sequencer.md R200, R201, R223): its acceptance, what becomes
of it while a command runs, and where a pending ABORT ends a command. -/

namespace Sys2Proof.Machine

open Sys2Proof

/-! ### A host write to CMD (R200, R201) -/

/-- Offset 0 is CMD (10_state.md R31). -/
theorem hostAccess_writeCmd (s : State) (w : Word) :
    hostAccess s (.write 0x000 w) = commandWrite s w := rfl

/-- The ABORT word (30_encoding.md R93). -/
theorem encode_abort : encode .abort = 0x00000008 := by decide

/-- A command word is accepted when no command runs (R200). -/
theorem commandWrite_idle {s : State} (hb : s.status.busy = false) (w : Word) :
    commandWrite s w = accept s w := if_pos hb

/-- A word other than ABORT is dropped while a command runs (R201). -/
theorem commandWrite_other {s : State} (hb : s.status.busy = true) {w : Word}
    (hw : w ≠ 0x00000008) : commandWrite s w = setDropped s true := by
  rw [commandWrite, if_neg (by simp [hb]), if_neg (encode_abort ▸ hw)]

/-- The ABORT word while a command runs (R223). -/
theorem commandWrite_abort {s : State} (hb : s.status.busy = true) :
    commandWrite s 0x00000008 =
      if s.status.abortPending then s
      else if s.hidden.wrote = false then setAbortPending s true else setDropped s true := by
  rw [commandWrite, if_neg (by simp [hb]), if_pos encode_abort.symm]

/-- Settles O7: a write to CMD while idle is an acceptance. -/
theorem commandAccepted : Obligations.CommandAccepted := by
  intro s w hb
  rw [hostAccess_writeCmd, commandWrite_idle hb]
  rfl

/-- Settles O8: by whether the word is ABORT, and then by R223's cases. -/
theorem busyCommandDroppedOrAborts : Obligations.BusyCommandDroppedOrAborts := by
  intro s w hb
  rw [hostAccess_writeCmd]
  by_cases hw : w = 0x00000008
  · subst hw
    rw [commandWrite_abort hb]
    simp only [true_and]
    rfl
  · rw [commandWrite_other hb hw, if_neg (fun h => hw h.1), if_neg (fun h => hw h.1)]
    rfl

/-! ### Where a pending ABORT ends a command (R202, R223) -/

/-- A command that issues no transaction is its first execution step. -/
theorem exec_eq_firstStep {i : Instr} (hk : ¬ PortCommand i) :
    ∃ body, ∀ s, exec i s = .next (firstStep body s) := by
  cases i with
  | init | setRate | bulkLoad | setXoUser | setXoTrim => exact absurd trivial hk
  | getRate | roundRate | abort | pack | unpack | solve | selectCp | xoLookup | classify =>
    exact ⟨_, fun _ => rfl⟩

section aborts

variable {first : State → State} {afterRead : State → XoImage → State}
  {afterWrite : State → State} {s : State} (ha : s.status.abortPending = true)

include ha

/-- A port command at its first step with an ABORT pending. -/
theorem runPort_firstAborted (hp : s.hidden.pending = none) :
    runPort first afterRead afterWrite s = finish s .aborted := by
  simp only [runPort, hp, firstStep_aborts ha]

/-- A port command whose read is answered with Ok while an ABORT is pending. -/
theorem runPort_readAborted {a : Byte} {n : Nat} {d : XoImage} {rest : List Event}
    (hp : s.hidden.pending = some (.read a n)) (hi : s.inputs = .port (.ok d) :: rest) :
    runPort first afterRead afterWrite s = finish (setFsm (dropAnswer s) .idle) .aborted := by
  simp only [runPort, hp, onReadAnswer, nextAnswer_port hi, ha, if_true]

end aborts

/-- Settles O9: every command asks for a pending ABORT at its first step, and `Read` asks again after its
await. -/
theorem pendingAbortResolves : Obligations.PendingAbortResolves := by
  refine ⟨fun i s ha hp => ?_, fun i s a n d rest hk ha hp hi => ?_⟩
  · by_cases hk : PortCommand i
    · obtain ⟨first, afterRead, afterWrite, h⟩ := exec_eq_runPort hk
      rw [h, runPort_firstAborted ha hp]
      rfl
    · obtain ⟨body, h⟩ := exec_eq_firstStep hk
      rw [h, firstStep_aborts ha]
      rfl
  · obtain ⟨first, afterRead, afterWrite, h⟩ := exec_eq_runPort hk.portCommand
    rw [h, runPort_readAborted ha hp hi, dropAnswer_eq hi]
    rfl

end Sys2Proof.Machine

/-! SUPPORT. The clock-tree calls (44_sequencer.md R205, R215 to R218): the next state of GET_RATE,
ROUND_RATE and ABORT, and CLASSIFY's two results by its operands. -/

namespace Sys2Proof.Machine

open Sys2Proof

/-- Settles O34: the rule of each call runs at its first step. -/
theorem rateQueriesAndAbortComplete : Obligations.RateQueriesAndAbortComplete := by
  intro s ha
  refine ⟨fun hi => ?_, fun hi => ?_, congrArg _ (firstStep_runs ha), congrArg _ (firstStep_runs ha)⟩
  · rw [exec, execGetRate, firstStep_runs ha, getRateRule, if_pos hi]
    rfl
  · rw [exec, execGetRate, firstStep_runs ha, getRateRule, if_neg (by simp [hi])]
    rfl

/-- |a - b| as the one natural that makes up the difference (00_scope.md R9). -/
theorem absDiff_eq {a b diff : Nat} (h : diff + min a b = max a b) : absDiff a b = diff := by
  unfold absDiff
  split <;> omega

/-- From an old rate of 0 the change is the greatest word and Large (R205). -/
theorem classifyChange_zero (new : Nat) : classifyChange new 0 = (2 ^ 32 - 1, .large) := rfl

/-- A change strictly below 5 parts in 10000 of the old rate is Small (R205). -/
theorem classifyChange_small {new act : Nat} (hp : 0 < act)
    (h : absDiff new act * 10000 < 5 * act) :
    classifyChange new act = (absDiff new act * 10000 / act, .small) := by
  rw [classifyChange_eq, if_neg hp.ne', if_pos ((Nat.div_lt_iff_lt_mul hp).2 h)]

/-- A change of 5 parts in 10000 of the old rate or more is Large (R205). -/
theorem classifyChange_large {new act : Nat} (hp : 0 < act)
    (h : 5 * act ≤ absDiff new act * 10000) :
    classifyChange new act = (absDiff new act * 10000 / act, .large) := by
  rw [classifyChange_eq, if_neg hp.ne',
    if_neg (Nat.not_lt.2 ((Nat.le_div_iff_mul_le hp).2 h))]

/-- The first result of Classify from a known rate (R205). -/
theorem classifyChange_fst {new act : Nat} (hp : 0 < act) :
    (classifyChange new act).1 = absDiff new act * 10000 / act := by
  rw [classifyChange_eq, if_neg hp.ne']

/-- A natural held saturated in a result word. -/
theorem toNat_saturated (n : Nat) :
    (BitVec.ofNat 32 (min n (2 ^ 32 - 1))).toNat = min n (2 ^ 32 - 1) :=
  Nat.mod_eq_of_lt (by omega)

/-- CLASSIFY completes at once, with both results of Classify of its operands (R218). -/
theorem exec_classify {s : State} (ha : s.status.abortPending = false) : exec .classify s = .next { s with
    regs := { s.regs with
      res0 := BitVec.ofNat 32
        (min (classifyChange s.hidden.latch.a0.toNat s.hidden.latch.a1.toNat).1 (2 ^ 32 - 1))
      res1 := classWord (classifyChange s.hidden.latch.a0.toNat s.hidden.latch.a1.toNat).2 }
    status := { s.status with err := .none, busy := false, abortPending := false } } :=
  congrArg _ (firstStep_runs ha)

/-- Settles O33: Classify by the old rate and the threshold; RES0 holds its first result saturated. -/
theorem classifyResult : Obligations.ClassifyResult := by
  rintro s _ _ diff ha rfl rfl hdiff
  have hd := absDiff_eq hdiff
  refine ⟨_, _, exec_classify ha, fun h0 => ?_, fun hp => ⟨?_, fun hs => ?_, fun hl => ?_⟩⟩
  · rw [toNat_saturated, h0, classifyChange_zero]
    exact ⟨rfl, rfl⟩
  · rw [toNat_saturated, classifyChange_fst hp, hd]
  · rw [classifyChange_small hp (hd ▸ hs)]
    rfl
  · rw [classifyChange_large hp (hd ▸ hl)]
    rfl

end Sys2Proof.Machine

/-! SUPPORT. The first execution steps of the port commands (44_sequencer.md R203, R206 to R209, R216, R220,
R222): their checks in order, and the transaction they issue once these pass. -/

namespace Sys2Proof.Machine

open Sys2Proof

/-! ### SET_RATE (R206 to R209) -/

/-- What SET_RATE's first step leaves once it has a solution: the class, the latched solution with its pump
code, and the read of the divider block (R208, R209). -/
def rateReads (s : State) (r : DividerSet) (mode : SolveMode) : State :=
  { s with
    status := { s.status with
      cls := (classifyChange s.hidden.latch.a0.toNat s.clock.actualHz.toNat).2, fsm := .computing }
    hidden := { s.hidden with
      solution := r, solutionMode := mode, cpCode := selectChargePump r.vcoHz.toNat,
      pending := some (.read 0x10 6) } }

section setRate

variable {s : State}

theorem setRateFirst_notInitialized (hi : s.status.initialized = false) :
    setRateFirst s = finish s .notInitialized := by
  rw [setRateFirst, if_pos (by simp [hi])]

variable (hi : s.status.initialized = true)

include hi

theorem setRateFirst_outOfRange (hr : s.hidden.latch.a0.toNat < s.clock.minHz.toNat ∨
    s.clock.maxHz.toNat < s.hidden.latch.a0.toNat) : setRateFirst s = finish s .outOfRange := by
  rw [setRateFirst, if_neg (not_not.2 hi)]
  exact if_pos hr

variable (hlo : s.clock.minHz.toNat ≤ s.hidden.latch.a0.toNat)
  (hhi : s.hidden.latch.a0.toNat ≤ s.clock.maxHz.toNat)

include hlo hhi

theorem setRateFirst_unsolved (hs : solveDividers s.hidden.latch.a0.toNat
      s.clock.referenceHz.toNat s.clock.xo.doublerDisabled = none) :
    setRateFirst s = finish (setFsm (setClass s
      (classifyChange s.hidden.latch.a0.toNat s.clock.actualHz.toNat).2) .failed)
      .noDividerSolution := by
  rw [setRateFirst, if_neg (not_not.2 hi), if_neg (by rw [argA0]; omega), argA0, hs]
  rfl

theorem setRateFirst_reads {r : DividerSet} {mode : SolveMode}
    (hs : solveDividers s.hidden.latch.a0.toNat s.clock.referenceHz.toNat
      s.clock.xo.doublerDisabled = some (r, mode)) : setRateFirst s = rateReads s r mode := by
  rw [setRateFirst, if_neg (not_not.2 hi), if_neg (by rw [argA0]; omega), argA0, hs]
  rfl

end setRate

/-- SET_RATE's first step with no ABORT pending. -/
theorem exec_setRate_first {s : State} (hp : s.hidden.pending = none)
    (ha : s.status.abortPending = false) : exec .setRate s = .next (setRateFirst s) :=
  congrArg _ (runPort_first hp ha)

/-- Settles O38, from the equation of each outcome. -/
theorem setRateFirstStep : Obligations.SetRateFirstStep := by
  rintro s _ _ rfl ha hp rfl
  rw [exec_setRate_first hp ha]
  refine ⟨fun hi => ?_, fun hi => ⟨fun hr => ?_, fun hlo hhi => ⟨fun hs => ?_, fun r mode hs => ?_⟩⟩⟩
  · rw [setRateFirst_notInitialized hi]
    rfl
  · rw [setRateFirst_outOfRange hi hr]
    rfl
  · rw [setRateFirst_unsolved hi hlo hhi hs]
    rfl
  · rw [setRateFirst_reads hi hlo hhi hs]
    rfl

/-! ### INIT (R203) -/

section init

variable {s : State}

theorem initFirst_illegalState (hi : s.status.initialized = true) :
    initFirst s = finish s .illegalState := if_pos hi

variable (hi : s.status.initialized = false)

include hi

theorem initFirst_illegalOperand (hb : ¬ (16000000 ≤ s.hidden.latch.a1.toNat ∧
    s.hidden.latch.a1.toNat ≤ s.hidden.latch.a2.toNat ∧
    s.hidden.latch.a2.toNat ≤ 2100000000)) : initFirst s = finish s .illegalOperand := by
  rw [initFirst, if_neg (by simp [hi])]
  exact if_pos hb

variable (hb : 16000000 ≤ s.hidden.latch.a1.toNat ∧
  s.hidden.latch.a1.toNat ≤ s.hidden.latch.a2.toNat ∧ s.hidden.latch.a2.toNat ≤ 2100000000)

include hb

theorem initFirst_unsupportedReference (ht : xoTrimOf s.hidden.latch.a0.toNat = none) :
    initFirst s = finish s .unsupportedReference := by
  rw [initFirst, if_neg (by simp [hi])]
  refine (if_neg (not_not.2 hb)).trans ?_
  rw [argA0, ht]

/-- INIT's last two checks, once its reference has a tuple. -/
theorem initFirst_supported {t : XoSettings} (ht : xoTrimOf s.hidden.latch.a0.toNat = some t) :
    initFirst s =
      if s.hidden.latch.a3 ≠ 0 ∧ ¬ (s.hidden.latch.a1.toNat ≤ s.hidden.latch.a3.toNat ∧
          s.hidden.latch.a3.toNat ≤ s.hidden.latch.a2.toNat) then finish s .outOfRange
      else if trimFits s.maps.xo t then issueRead (setFsm s .computing) 0x50 8
      else finish s .fieldOverflow := by
  have h0 : argA3 s ≠ 0 ↔ s.hidden.latch.a3 ≠ 0 := not_congr (BitVec.toNat_inj (y := 0))
  rw [initFirst, if_neg (by simp [hi])]
  refine (if_neg (not_not.2 hb)).trans ?_
  rw [argA0, ht]
  simp only [h0]
  rfl

end init

/-- Settles O35, from the equation of each check. -/
theorem initFirstStep : Obligations.InitFirstStep := by
  rintro s _ fails rfl ha hp hfails
  have hx : exec .init s = .next (initFirst s) := congrArg _ (runPort_first hp ha)
  have hends : ∀ e, finish s e = fails e := fun e => (hfails e).symm
  rw [hx]
  refine ⟨fun hi => ?_, fun hi => ⟨fun hb => ?_, fun h1 h12 h2 => ⟨fun ht => ?_, fun t ht => ?_⟩⟩⟩
  · rw [initFirst_illegalState hi, hends]
  · rw [initFirst_illegalOperand hi hb, hends]
  · rw [initFirst_unsupportedReference hi ⟨h1, h12, h2⟩ ht, hends]
  · rw [initFirst_supported hi ⟨h1, h12, h2⟩ ht]
    refine ⟨fun h0 h3 => ?_, fun h3 => ?_⟩
    · rw [if_pos ⟨h0, by omega⟩, hends]
    · rw [if_neg (by rintro ⟨h0, hn⟩; exact hn (h3.resolve_left h0))]
      refine ⟨fun hf => ?_, fun hf => ?_⟩
      · rw [if_neg (by simp [hf]), hends]
      · rw [if_pos hf]
        rfl

/-! ### SET_XO_USER and SET_XO_TRIM (R220, R222) -/

/-- Every trim value fits its field (R222). -/
theorem trimFits_iff (m : XoMap) (t : XoSettings) :
    trimFits m t = true ↔ ∀ f ∈ trimFields m t, f.2 < 2 ^ width f.1 := by
  simp [trimFits, trimFields, and_assoc]

/-- Both user values fit their fields (R220). -/
theorem userFits_iff (m : XoMap) (oe vs : Byte) : userFits m oe vs = true ↔
    oe.toNat < 2 ^ width m.oeMode ∧ vs.toNat < 2 ^ width m.vsel := by
  simp [userFits]

section xo

variable {s : State}

theorem setXoUserFirst_notInitialized (hi : s.status.initialized = false) (oe vs : Byte) :
    setXoUserFirst oe vs s = finish s .notInitialized := if_pos (by simp [hi])

theorem setXoTrimFirst_notInitialized (hi : s.status.initialized = false) :
    setXoTrimFirst s = finish s .notInitialized := if_pos (by simp [hi])

variable (hi : s.status.initialized = true)

include hi

/-- SET_XO_USER's check of its two values. -/
theorem setXoUserFirst_initialized (oe vs : Byte) : setXoUserFirst oe vs s =
    if oe.toNat < 2 ^ width s.maps.xo.oeMode ∧ vs.toNat < 2 ^ width s.maps.xo.vsel then
      issueRead (setFsm s .computing) 0x50 8
    else finish s .fieldOverflow := by
  rw [setXoUserFirst, if_neg (not_not.2 hi)]
  simp only [userFits_iff]

theorem setXoTrimFirst_illegalOperand (hr : s.hidden.latch.a0.extractLsb' 2 2 ≠ 0) :
    setXoTrimFirst s = finish s .illegalOperand := by
  rw [setXoTrimFirst, if_neg (not_not.2 hi)]
  exact if_pos hr

/-- SET_XO_TRIM's check of its seven values. -/
theorem setXoTrimFirst_legal (hr : s.hidden.latch.a0.extractLsb' 2 2 = 0) : setXoTrimFirst s =
    if trimFits s.maps.xo (xoTuple s.hidden.latch.a0) then issueRead (setFsm s .computing) 0x50 8
    else finish s .fieldOverflow := by
  rw [setXoTrimFirst, if_neg (not_not.2 hi)]
  exact if_neg (not_not.2 hr)

end xo

/-- Settles O45, from the equation of each check. -/
theorem xoCommandFirstSteps : Obligations.XoCommandFirstSteps := by
  rintro s fails _ ha hp hfails rfl
  have htrim : exec .setXoTrim s = .next (setXoTrimFirst s) := congrArg _ (runPort_first hp ha)
  have huser : ∀ oe vs, exec (.setXoUser oe vs) s = .next (setXoUserFirst oe vs s) :=
    fun _ _ => congrArg _ (runPort_first hp ha)
  have hends : ∀ e, finish s e = fails e := fun e => (hfails e).symm
  simp only [htrim, huser]
  refine ⟨fun hi => ⟨?_, fun oe vs => ?_⟩,
    fun hi => ⟨fun oe vs => ⟨fun hf => ?_, fun hoe hvs => ?_⟩, fun hr => ?_,
      fun hr => ⟨fun hf => ?_, fun hf => ?_⟩⟩⟩
  · rw [setXoTrimFirst_notInitialized hi, hends]
  · rw [setXoUserFirst_notInitialized hi, hends]
  · rw [setXoUserFirst_initialized hi, if_neg (by omega), hends]
  · rw [setXoUserFirst_initialized hi, if_pos ⟨hoe, hvs⟩]
    rfl
  · rw [setXoTrimFirst_illegalOperand hi hr, hends]
  · obtain ⟨f, hmem, hle⟩ := hf
    have hnot : ¬ trimFits s.maps.xo (xoTuple s.hidden.latch.a0) = true := fun h =>
      Nat.not_lt.2 hle ((trimFits_iff _ _).1 h f hmem)
    rw [setXoTrimFirst_legal hi hr, if_neg hnot, hends]
  · rw [setXoTrimFirst_legal hi hr, if_pos ((trimFits_iff _ _).2 hf)]
    rfl

/-! ### BULK_LOAD (R216) -/

theorem bulkEntries_length (snap : Memory) : (bulkEntries snap).length = 256 := by
  simp [bulkEntries]

/-- The entry of the bulk write at an address. -/
theorem bulkEntries_getElem? (snap : Memory) (i : Byte) :
    (bulkEntries snap)[i.toNat]? = some (i, readByte snap i) := by
  simp [bulkEntries, i.isLt]

/-- Settles O44: the two outcomes of the first step, and the end after the one write. -/
theorem bulkLoadRuns : Obligations.BulkLoadRuns := by
  refine fun s => ⟨fun ha hp => ?_, fun es d rest hp hi => ?_⟩
  · have hx : exec .bulkLoad s = .next (bulkLoadFirst s) := congrArg _ (runPort_first hp ha)
    rw [hx]
    refine ⟨fun hi => ?_, fun hi => ⟨bulkEntries s.hidden.snap, bulkEntries_length _,
      bulkEntries_getElem? _, ?_⟩⟩
    · rw [bulkLoadFirst, if_pos hi]
      rfl
    · rw [bulkLoadFirst, if_neg (by simp [hi])]
      rfl
  · rw [exec, execBulkLoad, runPort_writeOk hp hi, dropAnswer_eq hi]
    rfl

end Sys2Proof.Machine

/-! SUPPORT. What the port commands encode and write once their read is answered, and how they end once
their last write is (44_sequencer.md R203, R210 to R213, R220 to R222). -/

namespace Sys2Proof.Machine

open Sys2Proof

/-! ### The fields of the XO block (R127, R132) -/

/-- The two user fields of an XO map with their values (R132). -/
def userFields (m : XoMap) (oe vs : Byte) : List (List Piece × Nat) :=
  [(m.oeMode, oe.toNat), (m.vsel, vs.toNat)]

theorem encodeXoTrim_eq_putFields (m : XoMap) (img : XoImage) (t : XoSettings) :
    encodeXoTrim m img t = putFields img (trimFields m t) := rfl

theorem encodeXoUser_eq_putFields (m : XoMap) (img : XoImage) (oe vs : Byte) :
    encodeXoUser m img oe vs = putFields img (userFields m oe vs) := rfl

/-- The XO map's pieces are those of the trim fields and those of the user fields. -/
theorem xoPieces_eq (m : XoMap) (t : XoSettings) (oe vs : Byte) :
    xoPieces m = (trimFields m t).flatMap Prod.fst ++ (userFields m oe vs).flatMap Prod.fst := by
  simp [xoPieces, trimFields, userFields]

theorem xoMapOk_pieces {m : XoMap} (hm : xoMapOk m = true) : PiecesOk 8 (xoPieces m) := by
  simp only [xoMapOk, Bool.and_eq_true] at hm
  obtain ⟨⟨⟨hmasks, hdisj⟩, hoff⟩, -⟩ := hm
  exact ⟨hmasks, hdisj, hoff⟩

/-- The encoded trim is in its fields, and every other bit is as it was (R132). -/
theorem encodeXoTrim_written {m : XoMap} (hm : xoMapOk m = true) {t : XoSettings}
    (hf : trimFits m t = true) (img : XoImage) :
    ∃ out, encodeXoTrim m img t = .ok out ∧ FieldsWritten img out (trimFields m t) := by
  have hpieces := xoMapOk_pieces hm
  rw [xoPieces_eq m t 0 0] at hpieces
  obtain ⟨out, hput, hget, hkept⟩ :=
    putFields_written hpieces.of_append.1 ((trimFits_iff m t).1 hf) img
  exact ⟨out, (encodeXoTrim_eq_putFields m img t).trans hput,
    fieldsWritten_of_keptOutside hget hkept⟩

/-- The encoded user values are in their fields, and every other bit is as it was (R132). -/
theorem encodeXoUser_written {m : XoMap} (hm : xoMapOk m = true) {oe vs : Byte}
    (hoe : oe.toNat < 2 ^ width m.oeMode) (hvs : vs.toNat < 2 ^ width m.vsel) (img : XoImage) :
    ∃ out, encodeXoUser m img oe vs = .ok out ∧ FieldsWritten img out (userFields m oe vs) := by
  have hpieces := xoMapOk_pieces hm
  rw [xoPieces_eq m default oe vs] at hpieces
  obtain ⟨out, hput, hget, hkept⟩ :=
    putFields_written hpieces.of_append.2.1 (by simpa [userFields] using ⟨hoe, hvs⟩) img
  exact ⟨out, (encodeXoUser_eq_putFields m img oe vs).trans hput,
    fieldsWritten_of_keptOutside hget hkept⟩

/-! ### After a read (R203, R210, R220, R222) -/

/-- An image that encodes becomes IMG_XO, and its eight-entry write is issued (R62). -/
theorem writeXoImage_ok (s : State) (img : XoImage) : writeXoImage s (.ok img) =
    { s with
      imgXo := img
      status := { s.status with fsm := .writing }
      hidden := { s.hidden with
        wrote := true
        pending := some (.write
          [(0x50, img[0]), (0x51, img[1]), (0x52, img[2]), (0x53, img[3]), (0x54, img[4]),
           (0x55, img[5]), (0x56, img[6]), (0x57, img[7])]) } } := by
  rw [writeXoImage, imageEntries_xo]
  rfl

/-- A divider image that encodes becomes IMG_DIV, and its six-entry write is issued (R62, R210). -/
theorem setRateAfterRead_ok {s : State} {data : XoImage} {img : DivImage}
    (henc : encodeDiv s.maps.div (divBlock data) s.hidden.solution s.hidden.cpCode = .ok img) :
    setRateAfterRead s data = { s with
      imgDiv := img
      status := { s.status with fsm := .writing }
      hidden := { s.hidden with
        wrote := true
        pending := some (.write
          [(0x10, img[0]), (0x11, img[1]), (0x12, img[2]), (0x13, img[3]), (0x14, img[4]),
           (0x15, img[5])]) } } := by
  rw [setRateAfterRead, henc, ← imageEntries_div]
  rfl

/-- Settles O36, from the encoded trim. -/
theorem initWritesTrim : Obligations.InitWritesTrim := by
  intro s a n d rest t hm ha hp hi ht hf
  obtain ⟨img, henc, hwritten⟩ := encodeXoTrim_written hm hf d
  refine ⟨img, hwritten, ?_⟩
  rw [exec, execInit, runPort_readOk hp hi ha, dropAnswer_eq hi]
  simp only [initAfterRead, argA0, ht, henc, writeXoImage_ok]
  rfl

/-- Settles O39, from the encoding of the divider image. -/
theorem setRateWritesImage : Obligations.SetRateWritesImage := by
  intro s a n d rest hm ha hp hi
  obtain ⟨img, henc, -, hwritten⟩ :=
    dividerImageRoundTrip s.maps.div (divBlock d) s.hidden.solution s.hidden.cpCode hm
  refine ⟨img, divBlock_eq d ▸ hwritten, ?_⟩
  rw [exec, execSetRate, runPort_readOk hp hi ha,
    setRateAfterRead_ok (s := dropAnswer s) henc, dropAnswer_eq hi]

/-- Settles O46, from the encoded fields of each command. -/
theorem xoCommandsWriteImage : Obligations.XoCommandsWriteImage := by
  intro s a n d rest written hm ha hp hi hwr
  refine ⟨fun oe vs hoe hvs => ?_, fun hf => ?_⟩
  · obtain ⟨img, henc, hwritten⟩ := encodeXoUser_written hm hoe hvs d
    refine ⟨img, hwritten, ?_⟩
    rw [exec, execSetXoUser, runPort_readOk hp hi ha, dropAnswer_eq hi, hwr]
    simp only [setXoUserAfterRead, henc, writeXoImage_ok]
  · obtain ⟨img, henc, hwritten⟩ := encodeXoTrim_written hm hf d
    refine ⟨img, hwritten, ?_⟩
    rw [exec, execSetXoTrim, runPort_readOk hp hi ha, dropAnswer_eq hi, hwr]
    simp only [setXoTrimAfterRead, trimOperand, henc, writeXoImage_ok]

/-! ### After the write of INIT and of the XO commands (R203, R220, R222) -/

/-- Settles O37: INIT looks its reference up again and stores. -/
theorem initCompletes : Obligations.InitCompletes := by
  intro s es d rest t hp hi ht
  rw [exec, execInit, runPort_writeOk hp hi, dropAnswer_eq hi, initAfterWrite]
  simp only [argA0, countWrite_hidden, ht]
  rfl

/-- DIV_VALID after SET_XO_TRIM (R222): kept while doubler_disabled is. -/
theorem divValid_of_trim (v dd dd' : Bool) : (if dd = dd' then v else false) = (v && dd == dd') := by
  by_cases h : dd = dd' <;> simp [h]

/-- Settles O47: each XO command stores its operand and ends. -/
theorem xoCommandsComplete : Obligations.XoCommandsComplete := by
  rintro s es d rest _ hp hi rfl
  refine ⟨fun oe vs => ?_, ?_⟩
  · rw [exec, execSetXoUser, runPort_writeOk hp hi, dropAnswer_eq hi]
    rfl
  · rw [exec, execSetXoTrim, runPort_writeOk hp hi, dropAnswer_eq hi, ← divValid_of_trim]
    rfl

/-! ### The one-entry writes of SET_RATE and its commit (R204, R211 to R213) -/

theorem commitWrites_length (c : RateClass) : (commitWrites c).length = 7 := by
  cases c <;> rfl

section setRate

variable {s : State} {es : List (Byte × Byte)} {d : XoImage} {rest : List Event}
  (hp : s.hidden.pending = some (.write es)) (hi : s.inputs = .port (.ok d) :: rest)

include hp hi

/-- While one-entry writes are left, SET_RATE issues the one that STEP says. -/
theorem exec_setRate_next {e : Byte × Byte}
    (he : (commitWrites s.status.cls)[s.status.step.toNat]? = some e) :
    exec .setRate s = .next { s with
      inputs := rest
      status := { s.status with fsm := .committing, step := s.status.step + 1 }
      hidden := { s.hidden with wrote := true, pending := some (.write [e]) } } := by
  obtain ⟨hlt, -⟩ := List.getElem?_eq_some_iff.1 he
  rw [commitWrites_length] at hlt
  have hstep : (countWrite (dropAnswer s)).status.step.toNat - 1 = s.status.step.toNat := by
    rw [countWrite_step_toNat (s := dropAnswer s) (Nat.le_of_lt hlt)]
    rfl
  have h15 : s.status.step ≠ 15 := by rintro h; simp [h] at hlt
  have hnext : setRateAfterWrite (countWrite (dropAnswer s)) =
      issueWrite (setFsm (countWrite (dropAnswer s)) .committing) [e] := by
    rw [setRateAfterWrite, hstep]
    simp only [countWrite_cls, dropAnswer_status, he]
  rw [exec, execSetRate, runPort_writeOk hp hi, hnext, dropAnswer_eq hi, countWrite, if_neg h15]
  rfl

/-- After the seventh one-entry write SET_RATE commits (R213). -/
theorem exec_setRate_commits (h7 : s.status.step = 7) : exec .setRate s = .next { s with
    inputs := rest
    hidden := { s.hidden with pending := none }
    clock := { s.clock with
      requestedHz := s.hidden.latch.a0, actualHz := s.hidden.latch.a0,
      dividers := s.hidden.solution, chargePump := s.hidden.cpCode }
    status := { s.status with
      divValid := true, fracMode := decide (s.hidden.solutionMode = .fractional),
      chipUndef := false, step := 8, fsm := .idle, err := .none, busy := false,
      abortPending := false } } := by
  have hstep : (countWrite (dropAnswer s)).status.step = 8 := by
    rw [countWrite_step, dropAnswer_status, h7]
    rfl
  have hend : setRateAfterWrite (countWrite (dropAnswer s)) =
      succeed (commitRate (countWrite (dropAnswer s))) := by
    obtain ⟨hlt, -⟩ | ⟨-, h⟩ := setRateAfterWrite_cases (countWrite (dropAnswer s))
    · rw [hstep] at hlt
      exact absurd hlt (by decide)
    · exact h
  rw [exec, execSetRate, runPort_writeOk hp hi, hend, dropAnswer_eq hi, countWrite, h7]
  rfl

end setRate

/-- Settles O40: each listed entry is the one of `commitWrites` at that STEP. -/
theorem setRateCommitSequence : Obligations.SetRateCommitSequence := by
  intro s es d rest e hp hi he
  refine exec_setRate_next hp hi ?_
  obtain ⟨hk, rfl⟩ | ⟨hk, rfl⟩ | ⟨hk, rfl⟩ | ⟨hk, rfl⟩ | ⟨hk, rfl⟩ | ⟨hk, hc, rfl⟩ | ⟨hk, hc, rfl⟩ |
    ⟨hk, rfl⟩ := he
  iterate 5 · rw [hk]; cases s.status.cls <;> rfl
  iterate 2 · rw [hk, hc]; rfl
  · rw [hk]; cases s.status.cls <;> rfl

/-- Settles O41: STEP 7 leaves no one-entry write to issue. -/
theorem setRateCompletes : Obligations.SetRateCompletes :=
  fun _ _ _ _ hp hi h7 => exec_setRate_commits hp hi h7

end Sys2Proof.Machine

/-! SUPPORT. Whole SET_RATE commands (44_sequencer.md R204, R206, R213, R219): the run from the first step to
the commit, and why a second SET_RATE of the same rate writes what the first wrote. -/

namespace Sys2Proof.Machine

open Sys2Proof

/-! ### Steps of a running command -/

/-- A run goes on from the next state of its first step. -/
theorem run_succ {s t : State} (h : step s = .next t) (k : Nat) :
    Host.Core.run Sys2Proof.core (k + 1) s = Host.Core.run Sys2Proof.core k t := by
  have hcore : Sys2Proof.core.step s = .next t := h
  simp only [Host.Core.run, hcore]

/-- The step in which a running command takes its first execution step. -/
theorem step_eq_exec_first {s : State} {i : Instr} {rest : List Event} (hm : mapsOk s.maps = true)
    (hr : Running s i) (hp : s.hidden.pending = none) (hi : s.inputs = .ctrl :: rest) :
    step s = exec i (setInputs s rest) := by
  rw [step_eq_takeMove hm, takeMove_ctrl hi, controllerMove_due (s := setInputs s rest) hr.1 hp]
  exact controllerStep_of_decode (s := setInputs s rest) hr.2

/-- The step in which a running command gets the answer to its outstanding transaction. -/
theorem step_eq_exec_answer {s : State} {i : Instr} {a : PortAnswer} {rest : List Event}
    (hm : mapsOk s.maps = true) (hr : Running s i) (hp : s.hidden.pending.isSome = true)
    (hi : s.inputs = .port a :: rest) : step s = exec i s := by
  rw [step_eq_takeMove hm, takeMove_answer hi hr.1 hp, controllerStep_of_decode hr.2]

/-! ### The run to the commit (R204, R206, R213) -/

/-- `t` is `s` with the latched solution of its SET_RATE committed and `rest` the coming moves. -/
structure Committed (s : State) (rest : List Event) (t : State) : Prop where
  inputs : t.inputs = rest
  clock : t.clock = { s.clock with
    requestedHz := s.hidden.latch.a0, actualHz := s.hidden.latch.a0,
    dividers := s.hidden.solution, chargePump := s.hidden.cpCode }
  status : t.status = { s.status with
    busy := false, fsm := .idle, divValid := true, chipUndef := false,
    fracMode := decide (s.hidden.solutionMode = .fractional), abortPending := false, err := .none,
    step := 8 }
  regs : t.regs = s.regs
  pending : t.hidden.pending = none
  imgXo : t.imgXo = s.imgXo
  bulk : t.bulk = s.bulk

/-- The port's answers Ok, next first. -/
def okAnswers (ds : List XoImage) : List Event := ds.map fun d => .port (.ok d)

/-- The step in which SET_RATE passes its checks and reads the divider block. -/
theorem step_setRate_reads {s : State} {rest : List Event} {r : DividerSet} {mode : SolveMode}
    (hm : mapsOk s.maps = true) (hr : Running s .setRate) (hp : s.hidden.pending = none)
    (ha : s.status.abortPending = false) (hi : s.status.initialized = true)
    (hlo : s.clock.minHz.toNat ≤ s.hidden.latch.a0.toNat)
    (hhi : s.hidden.latch.a0.toNat ≤ s.clock.maxHz.toNat)
    (hsol : solveDividers s.hidden.latch.a0.toNat s.clock.referenceHz.toNat
      s.clock.xo.doublerDisabled = some (r, mode))
    (hin : s.inputs = .ctrl :: rest) : step s = .next (rateReads (setInputs s rest) r mode) := by
  rw [step_eq_exec_first hm hr hp hin, exec_setRate_first (s := setInputs s rest) hp ha,
    setRateFirst_reads (s := setInputs s rest) hi hlo hhi hsol]

/-- The step in which SET_RATE's read is answered and its image write is issued. -/
theorem step_setRate_writes {s : State} {a : Byte} {n : Nat} {d : XoImage} {rest : List Event}
    (hm : mapsOk s.maps = true) (hr : Running s .setRate) (ha : s.status.abortPending = false)
    (hp : s.hidden.pending = some (.read a n)) (hin : s.inputs = .port (.ok d) :: rest) :
    ∃ img es, step s = .next { s with
      inputs := rest
      imgDiv := img
      status := { s.status with fsm := .writing }
      hidden := { s.hidden with wrote := true, pending := some (.write es) } } := by
  obtain ⟨img, -, hx⟩ := setRateWritesImage s a n d rest (mapsOk_halves hm).1 ha hp hin
  exact ⟨img, _, (step_eq_exec_answer hm hr (by simp [hp]) hin).trans hx⟩

/-- With k writes counted and the other 8 - k answered Ok, SET_RATE commits: by induction on the answers. -/
theorem run_writes_commit (ds : List XoImage) {s : State} {es : List (Byte × Byte)}
    {rest : List Event} (hm : mapsOk s.maps = true) (hr : Running s .setRate)
    (hp : s.hidden.pending = some (.write es)) (h7 : s.status.step.toNat ≤ 7)
    (h8 : s.status.step.toNat + ds.length = 8)
    (hi : s.inputs = okAnswers ds ++ rest) :
    ∃ t, Host.Core.run Sys2Proof.core ds.length s = .next t ∧ Committed s rest t := by
  induction ds generalizing s es with
  | nil => rw [List.length_nil] at h8; omega
  | cons d ds ih =>
    rw [List.length_cons] at h8 ⊢
    have hstep : step s = exec .setRate s := step_eq_exec_answer hm hr (by simp [hp]) hi
    by_cases hlast : s.status.step = 7
    · rw [hlast, show (7 : BitVec 4).toNat = 7 from rfl] at h8
      obtain rfl : ds = [] := List.length_eq_zero_iff.1 (by omega)
      rw [exec_setRate_commits hp hi hlast] at hstep
      exact ⟨_, run_succ hstep 0, rfl, rfl, rfl, rfl, rfl, rfl, rfl⟩
    · have hlt : s.status.step.toNat < 7 :=
        Nat.lt_of_le_of_ne h7 fun h => hlast (BitVec.eq_of_toNat_eq h)
      have hcount : (s.status.step + 1).toNat = s.status.step.toNat + 1 :=
        BitVec.toNat_add_of_lt (y := 1#4) (by simp; omega)
      have he := List.getElem?_eq_getElem (l := commitWrites s.status.cls) (i := s.status.step.toNat)
        (by rw [commitWrites_length]; exact hlt)
      rw [exec_setRate_next hp hi he] at hstep
      rw [run_succ hstep]
      obtain ⟨t, hrun, hinputs, hclock, hstatus, hregs, hpend, himg, hbulk⟩ :=
        ih (s := { s with
            inputs := okAnswers ds ++ rest
            status := { s.status with fsm := .committing, step := s.status.step + 1 }
            hidden := { s.hidden with wrote := true, pending := some (.write [_]) } })
          hm hr rfl (hcount.trans_le hlt) (by simp only [hcount]; omega) rfl
      exact ⟨t, hrun, hinputs, hclock, hstatus, hregs, hpend, himg, hbulk⟩

/-- Settles O42: the first step, the read, then the eight writes. -/
theorem setRateRunsToCommit : Obligations.SetRateRunsToCommit := by
  intro s d0 d1 d2 d3 d4 d5 d6 d7 d8 rest r mode hm hr hp ha h0 hi hlo hhi hsol hin
  obtain ⟨later, hlater⟩ : ∃ later, later = okAnswers [d1, d2, d3, d4, d5, d6, d7, d8] ++ rest :=
    ⟨_, rfl⟩
  have hin : s.inputs = .ctrl :: .port (.ok d0) :: later := by rw [hin, hlater]; rfl
  have hfirst := step_setRate_reads hm hr hp ha hi hlo hhi hsol hin
  obtain ⟨img, es, hsecond⟩ := step_setRate_writes
    (s := rateReads (setInputs s (.port (.ok d0) :: later)) r mode) hm hr ha rfl rfl
  rw [run_succ hfirst 9, run_succ hsecond 8]
  refine (run_writes_commit [d1, d2, d3, d4, d5, d6, d7, d8] (es := es) ?_ ?_ rfl ?_ ?_ hlater).imp
    fun t ⟨hrun, hc⟩ => ⟨hrun, hc.inputs, hc.clock, hc.status, hc.regs, hc.pending, hc.imgXo, hc.bulk⟩
  · exact hm
  · exact hr
  · exact h0 ▸ Nat.zero_le 7
  · exact h0 ▸ rfl

/-! ### One solution for one request (R205, R219) -/

/-- A request that has a solution is not 0. -/
theorem solveDividers_pos {req ref : Nat} {dd : Bool} {r : DividerSet} {mode : SolveMode}
    (h : solveDividers req ref dd = some (r, mode)) : 0 < req := by
  obtain ⟨hb, hv, -⟩ := solveDividers_sound h
  obtain ⟨-, -, -, -, hlo, -⟩ := (dividerBounds_iff r).1 hb
  refine Nat.pos_of_ne_zero fun h0 => ?_
  rw [hv, h0, Nat.zero_mul] at hlo
  omega

/-- A change to the rate itself is Small (R205). -/
theorem classifyChange_self {act : Nat} (hp : 0 < act) : (classifyChange act act).2 = .small := by
  have h0 : absDiff act act = 0 := by simp [absDiff]
  rw [classifyChange_small hp (by omega)]

/-- SET_RATE's first step issues a transaction only once it has a solution. -/
theorem setRate_reads_of_pending {s s' : State} (hp : s.hidden.pending = none)
    (h : exec .setRate s = .next s') (hs' : s'.hidden.pending.isSome = true) :
    ∃ r mode, solveDividers s.hidden.latch.a0.toNat s.clock.referenceHz.toNat
      s.clock.xo.doublerDisabled = some (r, mode) ∧ s' = rateReads s r mode := by
  have hends : ∀ e, s' ≠ finish s e := by
    rintro e rfl
    simp [hp] at hs'
  cases ha : s.status.abortPending
  case true =>
    rw [exec, execSetRate, runPort_firstAborted ha hp] at h
    exact absurd (Host.Outcome.next.inj h).symm (hends _)
  rw [exec_setRate_first hp ha] at h
  have h := (Host.Outcome.next.inj h).symm
  cases hi : s.status.initialized
  case false => exact absurd (h.trans (setRateFirst_notInitialized hi)) (hends _)
  by_cases hr : s.hidden.latch.a0.toNat < s.clock.minHz.toNat ∨
    s.clock.maxHz.toNat < s.hidden.latch.a0.toNat
  · exact absurd (h.trans (setRateFirst_outOfRange hi hr)) (hends _)
  rw [not_or, Nat.not_lt, Nat.not_lt] at hr
  cases hsol : solveDividers s.hidden.latch.a0.toNat s.clock.referenceHz.toNat
    s.clock.xo.doublerDisabled with
  | none =>
    rw [h, setRateFirst_unsolved hi hr.1 hr.2 hsol] at hs'
    simp [hp] at hs'
  | some rm => exact ⟨rm.1, rm.2, rfl, h.trans (setRateFirst_reads hi hr.1 hr.2 hsol)⟩

/-! ### One image for one solution (R126, R219) -/

/-- Two bytes with the same unpacked value agree in the bits of the mask (R122). -/
theorem getLsbD_of_unpackBits_eq {a b m : Byte} (h0 : m ≠ 0)
    (h : unpackBits a m = unpackBits b m) {j : Nat} (hj : m.getLsbD j = true) :
    a.getLsbD j = b.getLsbD j := by
  have hle : lsb m ≤ j := by
    by_contra hlt
    rw [(lsb_lowest m h0).2 j (by omega)] at hj
    cases hj
  have hbit := congrArg (Nat.testBit · (j - lsb m)) h
  simpa [unpackBits_testBit, Nat.sub_add_cancel hle, hj] using hbit

/-- Two images with the same value in a field agree in the bits of its pieces (R126). -/
theorem getLsbD_of_getField_eq {n : Nat} {x y : Vector Byte n} {ps : List Piece}
    (hm : masksOk ps = true) (h : getField x ps = getField y ps) :
    ∀ p ∈ ps, ∀ j, p.mask.getLsbD j = true →
      (imgByte x p.off).getLsbD j = (imgByte y p.off).getLsbD j := by
  induction ps with
  | nil => simp
  | cons q ps ih =>
    simp only [masksOk, List.all_cons, Bool.and_eq_true, bne_iff_ne] at hm
    obtain ⟨⟨h0, hc⟩, hms⟩ := hm
    have hx := unpackBits_lt (b := imgByte x q.off) h0 hc
    have hy := unpackBits_lt (b := imgByte y q.off) h0 hc
    simp only [getField, Nat.shiftLeft_eq] at h
    have hlow : unpackBits (imgByte x q.off) q.mask = unpackBits (imgByte y q.off) q.mask := by
      have := congrArg (· % 2 ^ popcount q.mask) h
      simpa [Nat.mod_eq_of_lt hx, Nat.mod_eq_of_lt hy] using this
    have hhigh : getField x ps = getField y ps := by
      rw [hlow] at h
      exact Nat.eq_of_mul_eq_mul_right (Nat.two_pow_pos _) (Nat.add_left_cancel h)
    exact List.forall_mem_cons.2
      ⟨fun j hj => getLsbD_of_unpackBits_eq h0 hlow hj, ih hms hhigh⟩

/-- What is written into fields is one image, whatever the fields held before. -/
theorem FieldsWritten.unique {n : Nat} {old old' new new' : Vector Byte n}
    {fields : List (List Piece × Nat)} (hm : ∀ f ∈ fields, masksOk f.1 = true)
    (h : FieldsWritten old new fields) (h' : FieldsWritten old' new' fields)
    (hold : ∀ (i j : Nat) (hi : i < n), j < 8 →
      (∀ f ∈ fields, ∀ p ∈ f.1, p.off = i → p.mask.getLsbD j = false) →
      old[i].getLsbD j = old'[i].getLsbD j) : new = new' := by
  obtain ⟨hget, hkept⟩ := h
  obtain ⟨hget', hkept'⟩ := h'
  refine Vector.ext fun i hi => BitVec.eq_of_getLsbD_eq fun j hj => ?_
  by_cases hfree : ∀ f ∈ fields, ∀ p ∈ f.1, p.off = i → p.mask.getLsbD j = false
  · rw [hkept i j hi hj hfree, hkept' i j hi hj hfree, hold i j hi hj hfree]
  · push Not at hfree
    obtain ⟨f, hf, p, hpf, rfl, hbit⟩ := hfree
    rw [← imgByte_getElem new hi, ← imgByte_getElem new' hi]
    exact getLsbD_of_getField_eq (hm f hf) ((hget f hf).trans (hget' f hf).symm) p hpf j
      (by simpa using hbit)

/-- The masks of each divider field (R127). -/
theorem divFields_masks {m : DivMap} (hm : divMapOk m = true) (r : DividerSet) (cp : BitVec 3) :
    ∀ f ∈ divFields m r cp, masksOk f.1 = true := by
  have hmasks := (divMapOk_pieces hm).1.masks
  simp only [divPieces, masksOk_append, Bool.and_eq_true] at hmasks
  obtain ⟨⟨⟨hod, hfi⟩, hff⟩, hcp⟩ := hmasks
  simp only [divFields, List.forall_mem_cons]
  exact ⟨hod, hfi, hff, hcp, by simp⟩

/-! ### One next write at one STEP (R204, R219) -/

/-- What SET_RATE has outstanding after a counted write, by STEP and the class. -/
theorem setRateAfterWrite_pending {s : State} (hp : s.hidden.pending = none) :
    (setRateAfterWrite s).hidden.pending =
      (commitWrites s.status.cls)[s.status.step.toNat - 1]?.map (fun e => .write [e]) := by
  unfold setRateAfterWrite
  split
  · rename_i e he
    rw [he]
    rfl
  · rename_i he
    rw [he]
    exact hp

/-- Settles O43: one request has one solution, one solution one image, one STEP one next write. -/
theorem setRateIdempotent : Obligations.SetRateIdempotent := by
  refine ⟨?_, ?_, ?_⟩
  · intro s t s' t' h0 href hdd hps hpt hs ht hs' ht'
    obtain ⟨r, mode, hsol, rfl⟩ := setRate_reads_of_pending hps hs hs'
    obtain ⟨r', mode', hsol', rfl⟩ := setRate_reads_of_pending hpt ht ht'
    rw [h0, href, hdd, hsol'] at hsol
    cases hsol
    refine ⟨rfl, rfl, fun hact => ?_⟩
    rw [rateReads, hact]
    exact classifyChange_self (solveDividers_pos hsol')
  · intro s t a a' n n' d e rest rest' hm hmaps hsol hcp has hat hps hpt his hit hold
    obtain ⟨img, hw, hs⟩ := setRateWritesImage s a n d rest hm has hps his
    obtain ⟨img', hw', ht⟩ := setRateWritesImage t a' n' e rest' (hmaps ▸ hm) hat hpt hit
    rw [← hmaps, ← hsol, ← hcp] at hw'
    have himg : img = img' := hw.unique (divFields_masks hm _ _) hw' fun i j hi hj hfree => by
      rw [← divBlock_eq, ← divBlock_eq]
      simp only [divBlock, Vector.getElem_ofFn]
      refine hold i j hi hj ?_
      rw [← divFields_pieces _ s.hidden.solution s.hidden.cpCode]
      intro p hp
      obtain ⟨f, hf, hpf⟩ := List.mem_flatMap.1 hp
      exact hfree f hf p hpf
    subst himg
    exact ⟨_, _, _, hs, ht, rfl, rfl⟩
  · intro s t es es' d e rest rest' hstep hcls hps hpt his hit
    refine ⟨_, _, congrArg Host.Outcome.next (runPort_writeOk hps his),
      congrArg Host.Outcome.next (runPort_writeOk hpt hit), ?_⟩
    have hcount : (countWrite (dropAnswer s)).status.step =
        (countWrite (dropAnswer t)).status.step := by
      rw [countWrite_step, countWrite_step, dropAnswer_status, dropAnswer_status, hstep]
    rw [setRateAfterWrite_pending rfl, setRateAfterWrite_pending rfl, hcount, countWrite_cls,
      countWrite_cls, dropAnswer_status, dropAnswer_status, hcls]

end Sys2Proof.Machine

/-! SUPPORT. The transitions of S.state (44_sequencer.md R224), and what the port commands leave unchanged of
ClockState, STATUS and the two images (R203, R214, R216, R220, R222). -/

namespace Sys2Proof.Machine

open Sys2Proof

/-! ### The transitions of S.state (R224) -/

/-- The FSM may stay where it is. -/
theorem FsmMove.refl (f : FsmState) : FsmMove f f := by
  cases f <;> exact trivial

/-- From rest the FSM may move to any state but Committing and Idle (R224). -/
theorem FsmMove.of_resting {f g : FsmState} (hf : f = .idle ∨ f = .failed)
    (hg : g = .computing ∨ g = .writing ∨ g = .failed) : FsmMove f g := by
  obtain rfl | rfl := hf <;> obtain rfl | rfl | rfl := hg <;> exact trivial

/-- From Computing the FSM may move to Writing, Idle and Failed (R224). -/
theorem FsmMove.of_computing {f g : FsmState} (hf : f = .computing)
    (hg : g = .writing ∨ g = .idle ∨ g = .failed) : FsmMove f g := by
  subst hf
  obtain rfl | rfl | rfl := hg <;> exact trivial

/-- From Writing and Committing the FSM may move to Committing, Idle and Failed (R224). -/
theorem FsmMove.of_writing {f g : FsmState} (hf : f = .writing ∨ f = .committing)
    (hg : g = .committing ∨ g = .idle ∨ g = .failed) : FsmMove f g := by
  obtain rfl | rfl := hf <;> obtain rfl | rfl | rfl := hg <;> exact trivial

/-- With a read outstanding the FSM is in Computing. -/
theorem SequencerInv.fsm_of_read {s : State} (hs : SequencerInv s) {a : Byte} {n : Nat}
    (hp : s.hidden.pending = some (.read a n)) : s.status.fsm = .computing :=
  (hs.reading a n hp).1

/-- With a write outstanding the FSM is in Writing or Committing. -/
theorem SequencerInv.fsm_of_write {s : State} (hs : SequencerInv s) {es : List (Byte × Byte)}
    (hp : s.hidden.pending = some (.write es)) :
    s.status.fsm = .writing ∨ s.status.fsm = .committing :=
  (hs.writing es hp).2.imp And.left And.left

/-- A controller step of the running command makes a listed transition. -/
theorem CommandMove.fsmMove {i : Instr} {s t : State} (h : CommandMove i s t)
    (hs : SequencerInv s) : FsmMove s.status.fsm t.status.fsm := by
  cases h with
  | refuses | results | waits => exact .refl _
  | unsolved _ _ hp => exact .of_resting (hs.resting hp) (.inr (.inr rfl))
  | readsXo _ _ _ hp => exact .of_resting (hs.resting hp) (.inl rfl)
  | readsDiv _ _ _ _ _ _ _ _ hp => exact .of_resting (hs.resting hp) (.inl rfl)
  | writesBulk _ _ _ hp => exact .of_resting (hs.resting hp) (.inr (.inl rfl))
  | readFails _ _ _ hp => exact .of_computing (hs.fsm_of_read hp) (.inr (.inr rfl))
  | readAborted _ _ hp => exact .of_computing (hs.fsm_of_read hp) (.inr (.inl rfl))
  | writesDiv _ _ _ _ _ hp => exact .of_computing (hs.fsm_of_read hp) (.inl rfl)
  | writesXo _ _ _ _ _ _ _ hp => exact .of_computing (hs.fsm_of_read hp) (.inl rfl)
  | writeFails _ _ _ hp => exact .of_writing (hs.fsm_of_write hp) (.inr (.inr rfl))
  | writesNext _ _ _ _ _ hp => exact .of_writing (hs.fsm_of_write hp) (.inl rfl)
  | initDone _ _ _ hp => exact .of_writing (hs.fsm_of_write hp) (.inr (.inl rfl))
  | rateDone _ _ hp => exact .of_writing (hs.fsm_of_write hp) (.inr (.inl rfl))
  | bulkDone _ _ hp => exact .of_writing (hs.fsm_of_write hp) (.inr (.inl rfl))
  | userDone _ _ _ _ hp => exact .of_writing (hs.fsm_of_write hp) (.inr (.inl rfl))
  | trimDone _ _ hp => exact .of_writing (hs.fsm_of_write hp) (.inr (.inl rfl))

theorem HostMove.fsm_kept {s t : State} (h : HostMove s t) : t.status.fsm = s.status.fsm := by
  cases h <;> rfl

/-- Settles O54: only a controller step of the running command moves the FSM. -/
theorem fsmMovesOnlyAsListed : Obligations.FsmMovesOnlyAsListed := by
  intro s t hs hr h
  cases step_stepMove hs h with
  | idles | illegal => exact .refl _
  | host es _ ht =>
    rw [ht.fsm_kept]
    exact .refl _
  | resets _ hrn => exact absurd hrn hr
  | command es i _ _ _ hc => exact hc.fsmMove (hs.setInputs es)

/-! ### What a port command stores in ClockState -/

/-- What the port command `i` changes of ClockState, INIT, DIV_VALID and FRACMODE when it succeeds (R203,
R213, R216, R220, R222). -/
def ClockStored (s t : State) : Instr → Prop
  | .init => ∃ x, t.clock = initClock s x
  | .setRate => t.status.initialized = s.status.initialized ∧ t.clock = { s.clock with
      requestedHz := s.hidden.latch.a0, actualHz := s.hidden.latch.a0,
      dividers := s.hidden.solution, chargePump := s.hidden.cpCode }
  | .setXoUser oe vs => t.status.initialized = s.status.initialized ∧
      t.status.divValid = s.status.divValid ∧ t.status.fracMode = s.status.fracMode ∧
      t.clock = { s.clock with oeMode := oe, vsel := vs }
  | .setXoTrim => t.status.initialized = s.status.initialized ∧
      t.status.fracMode = s.status.fracMode ∧
      t.clock = { s.clock with xo := xoTuple s.hidden.latch.a0 }
  | .bulkLoad | .getRate | .roundRate | .abort | .pack _ _ _ | .unpack _ _ | .solve | .selectCp
  | .xoLookup | .classify => False

/-- A controller step keeps ClockState, or it stores what its command does and finishes NONE. -/
def ClockEffect (i : Instr) (s t : State) : Prop :=
  ClockKept s t ∨ (t.status.err = .none ∧ ClockStored s t i)

/-- What no port command but SET_RATE writes: IMG_DIV, CLASS and the solver latch. -/
structure DivSideKept (s t : State) : Prop where
  imgDiv : t.imgDiv = s.imgDiv
  cls : t.status.cls = s.status.cls
  solution : t.hidden.solution = s.hidden.solution

/-- What a controller step of the port command `i` leaves unchanged, besides `PortKept`. -/
structure PortFrame (i : Instr) (s t : State) : Prop where
  divSide : i ≠ .setRate → DivSideKept s t
  imgXo : i = .setRate ∨ i = .bulkLoad → t.imgXo = s.imgXo
  clock : ClockEffect i s t

/-- A state in which only other fields changed. -/
theorem PortFrame.of_kept {i : Instr} {s t : State} (hd : DivSideKept s t)
    (hx : t.imgXo = s.imgXo) (hc : ClockKept s t) : PortFrame i s t :=
  ⟨fun _ => hd, fun _ => hx, .inl hc⟩

/-- The end of a command that stores nothing. -/
theorem PortFrame.of_finish (i : Instr) (s : State) (e : ErrCode) : PortFrame i s (finish s e) :=
  .of_kept ⟨rfl, rfl, rfl⟩ rfl ⟨rfl, rfl, rfl, rfl⟩

/-- Taking the port's answer and counting a write are no change to the frame. -/
theorem PortFrame.of_answered {i : Instr} {s t : State} {es : List Event} {k : BitVec 4}
    (h : PortFrame i { s with
      inputs := es, hidden := { s.hidden with pending := none }
      status := { s.status with step := k } } t) : PortFrame i s t where
  divSide hi := ⟨(h.divSide hi).imgDiv, (h.divSide hi).cls, (h.divSide hi).solution⟩
  imgXo := h.imgXo
  clock := h.clock.imp (fun hk => ⟨hk.clock, hk.initialized, hk.divValid, hk.fracMode⟩) id

/-- A port command has its frame once each of its three parts does. -/
theorem runPort_portFrame {i : Instr} {first : State → State}
    {afterRead : State → XoImage → State} {afterWrite : State → State}
    (hf : ∀ s, PortFrame i s (first s)) (hr : ∀ s d, PortFrame i s (afterRead s d))
    (hw : ∀ s, PortFrame i s (afterWrite s)) (s : State) :
    PortFrame i s (runPort first afterRead afterWrite s) := by
  have h := runPort_portStep first afterRead afterWrite s
  generalize runPort first afterRead afterWrite s = t at h ⊢
  cases h with
  | firstRuns => exact hf s
  | readOk a n d => exact .of_answered (es := s.inputs.tail) (hr (dropAnswer s) d)
  | writeOk => exact .of_answered (es := s.inputs.tail) (hw (countWrite (dropAnswer s)))
  | _ => exact .of_kept ⟨rfl, rfl, rfl⟩ rfl ⟨rfl, rfl, rfl, rfl⟩

/-- Encoding and writing an XO image changes no field but IMG_XO and the sequencer's. -/
theorem PortFrame.of_writeXoImage {i : Instr} (hi : ¬ (i = .setRate ∨ i = .bulkLoad)) {s u : State}
    (hd : DivSideKept s u) (hc : ClockKept s u) (x : Except ErrCode XoImage) :
    PortFrame i s (writeXoImage u x) := by
  refine ⟨fun _ => ?_, fun h => absurd h hi, .inl ?_⟩
  · cases x <;> exact ⟨hd.imgDiv, hd.cls, hd.solution⟩
  · cases x <;> exact ⟨hc.clock, hc.initialized, hc.divValid, hc.fracMode⟩

theorem init_portFrame (s : State) :
    PortFrame .init s (runPort initFirst initAfterRead initAfterWrite s) := by
  refine runPort_portFrame (fun s => ?_) (fun s d => ?_) (fun s => ?_) s
  · obtain ⟨e, h, -⟩ | ⟨-, -, -, -, h⟩ := initFirst_cases s <;> rw [h]
    · exact .of_finish _ s e
    · exact .of_kept ⟨rfl, rfl, rfl⟩ rfl ⟨rfl, rfl, rfl, rfl⟩
  · unfold initAfterRead
    split
    · exact .of_finish _ s _
    · refine .of_writeXoImage (by simp) ?_ ?_ _
      · exact ⟨rfl, rfl, rfl⟩
      · exact ⟨rfl, rfl, rfl, rfl⟩
  · unfold initAfterWrite
    split
    · exact .of_finish _ s _
    · exact ⟨fun _ => ⟨rfl, rfl, rfl⟩, fun _ => rfl, .inr ⟨rfl, _, rfl⟩⟩

theorem setRate_portFrame (s : State) :
    PortFrame .setRate s (runPort setRateFirst setRateAfterRead setRateAfterWrite s) := by
  refine runPort_portFrame (fun s => ?_) (fun s d => ?_) (fun s => ?_) s
  · obtain ⟨e, h, -⟩ | ⟨c, h⟩ | ⟨-, -, -, c, r, mode, -, h⟩ := setRateFirst_cases s <;> rw [h] <;>
      exact ⟨fun h => absurd rfl h, fun _ => rfl, .inl ⟨rfl, rfl, rfl, rfl⟩⟩
  · unfold setRateAfterRead
    split <;> exact ⟨fun h => absurd rfl h, fun _ => rfl, .inl ⟨rfl, rfl, rfl, rfl⟩⟩
  · obtain ⟨-, e, -, h⟩ | ⟨-, h⟩ := setRateAfterWrite_cases s <;> rw [h]
    · exact ⟨fun h => absurd rfl h, fun _ => rfl, .inl ⟨rfl, rfl, rfl, rfl⟩⟩
    · exact ⟨fun h => absurd rfl h, fun _ => rfl, .inr ⟨rfl, rfl, rfl⟩⟩

theorem bulkLoad_portFrame (s : State) :
    PortFrame .bulkLoad s (runPort bulkLoadFirst bulkLoadAfterRead succeed s) := by
  refine runPort_portFrame (fun s => ?_) (fun s d => ?_) (fun s => ?_) s
  · obtain ⟨-, h⟩ | ⟨-, h⟩ := bulkLoadFirst_cases s <;> rw [h] <;>
      exact .of_kept ⟨rfl, rfl, rfl⟩ rfl ⟨rfl, rfl, rfl, rfl⟩
  all_goals exact .of_kept ⟨rfl, rfl, rfl⟩ rfl ⟨rfl, rfl, rfl, rfl⟩

theorem setXoUser_portFrame (oe vs : Byte) (s : State) : PortFrame (.setXoUser oe vs) s
    (runPort (setXoUserFirst oe vs) (setXoUserAfterRead oe vs) (setXoUserAfterWrite oe vs) s) := by
  refine runPort_portFrame (fun s => ?_) (fun s d => ?_) (fun s => ?_) s
  · obtain ⟨e, h, -⟩ | ⟨-, -, h⟩ := setXoUserFirst_cases oe vs s <;> rw [h] <;>
      exact .of_kept ⟨rfl, rfl, rfl⟩ rfl ⟨rfl, rfl, rfl, rfl⟩
  · exact .of_writeXoImage (by simp) ⟨rfl, rfl, rfl⟩ ⟨rfl, rfl, rfl, rfl⟩ _
  · exact ⟨fun _ => ⟨rfl, rfl, rfl⟩, fun _ => rfl, .inr ⟨rfl, rfl, rfl, rfl, rfl⟩⟩

theorem setXoTrim_portFrame (s : State) :
    PortFrame .setXoTrim s (runPort setXoTrimFirst setXoTrimAfterRead setXoTrimAfterWrite s) := by
  refine runPort_portFrame (fun s => ?_) (fun s d => ?_) (fun s => ?_) s
  · obtain ⟨e, h, -⟩ | ⟨-, -, -, h⟩ := setXoTrimFirst_cases s <;> rw [h] <;>
      exact .of_kept ⟨rfl, rfl, rfl⟩ rfl ⟨rfl, rfl, rfl, rfl⟩
  · exact .of_writeXoImage (by simp) ⟨rfl, rfl, rfl⟩ ⟨rfl, rfl, rfl, rfl⟩ _
  · exact ⟨fun _ => ⟨rfl, rfl, rfl⟩, fun _ => rfl, .inr ⟨rfl, rfl, rfl, rfl⟩⟩

/-- Every controller step of a port command has that command's frame. -/
theorem exec_portFrame {i : Instr} (hk : PortCommand i) {s t : State} (h : exec i s = .next t) :
    PortFrame i s t := by
  cases i with
  | init => cases h; exact init_portFrame s
  | setRate => cases h; exact setRate_portFrame s
  | bulkLoad => cases h; exact bulkLoad_portFrame s
  | setXoUser oe vs => cases h; exact setXoUser_portFrame oe vs s
  | setXoTrim => cases h; exact setXoTrim_portFrame s
  | getRate | roundRate | abort | pack | unpack | solve | selectCp | xoLookup | classify =>
    cases hk

/-- What a step that keeps ClockState leaves unchanged, and what one that stores does, command by
command. -/
theorem ClockEffect.frame {i : Instr} {s t : State} (h : ClockEffect i s t) :
    (i ≠ .setRate → t.clock.dividers = s.clock.dividers ∧
      t.clock.chargePump = s.clock.chargePump) ∧
    ((i = .setRate ∨ i = .bulkLoad) → t.clock.xo = s.clock.xo ∧
      t.clock.oeMode = s.clock.oeMode ∧ t.clock.vsel = s.clock.vsel) ∧
    (i ≠ .init → t.status.initialized = s.status.initialized ∧
      t.clock.referenceHz = s.clock.referenceHz ∧ t.clock.minHz = s.clock.minHz ∧
      t.clock.maxHz = s.clock.maxHz) ∧
    (i ≠ .init → i ≠ .setRate → t.clock.requestedHz = s.clock.requestedHz ∧
      t.clock.actualHz = s.clock.actualHz ∧ t.status.fracMode = s.status.fracMode) ∧
    (i = .bulkLoad → t.clock = s.clock ∧ t.status.divValid = s.status.divValid) ∧
    (∀ oe vs, i = .setXoUser oe vs → t.clock.xo = s.clock.xo ∧
      t.status.divValid = s.status.divValid) ∧
    (i = .setXoTrim → t.clock.oeMode = s.clock.oeMode ∧ t.clock.vsel = s.clock.vsel) := by
  obtain ⟨hc, hi, hd, hf⟩ | ⟨-, h⟩ := h
  · simp [hc, hi, hd, hf]
  cases i with
  | init => obtain ⟨x, hc⟩ := h; simp [hc, initClock]
  | setRate => obtain ⟨hi, hc⟩ := h; simp [hi, hc]
  | setXoUser => obtain ⟨hi, hd, hf, hc⟩ := h; simp [hi, hd, hf, hc]
  | setXoTrim => obtain ⟨hi, hf, hc⟩ := h; simp [hi, hf, hc]
  | bulkLoad | getRate | roundRate | abort | pack | unpack | solve | selectCp | xoLookup | classify =>
    exact h.elim

/-- Settles O49: what every port command keeps, with its own frame; one that fails stores nothing. -/
theorem portCommandFrame : Obligations.PortCommandFrame := by
  intro i s t hk h
  obtain ⟨⟨c, hregs⟩, hbulk, hsnap, hlatch, hmaps, hread, hdrop, hlast⟩ := exec_portKept hk h
  obtain ⟨hdiv, himg, hclock⟩ := exec_portFrame hk h
  obtain ⟨hrates, hxo, href, hact, hbulkLoad, huser, htrim⟩ := hclock.frame
  refine ⟨by rw [hregs], hread, hmaps, fun a => by rw [hbulk], hlatch, hsnap, hdrop, hlast,
    fun hi => ?_, fun hi => ⟨himg hi, hxo hi⟩, href, hact, hbulkLoad, huser, htrim, fun _ he => ?_⟩
  · obtain ⟨himgDiv, hcls, hsol⟩ := hdiv hi
    obtain ⟨hdividers, hpump⟩ := hrates hi
    exact ⟨himgDiv, hcls, hdividers, hpump, hsol⟩
  · obtain hkept | ⟨hnone, -⟩ := hclock
    · exact ⟨hkept.clock, hkept.initialized, hkept.divValid, hkept.fracMode⟩
    · exact absurd hnone he

end Sys2Proof.Machine

/-! SUPPORT. Every move answers a next state, and no move changes the field maps (60_exceptions.md R255,
40_bitfield_codec.md R127; logs 3, 4, 11 and 15). -/

namespace Sys2Proof.Machine

open Sys2Proof

/-! ### Every move answers -/

/-- The controller's move answers a next state, due or not (R261). -/
theorem controllerMove_next (s : State) : ∃ t, controllerMove s = .next t := by
  unfold controllerMove
  split
  · exact controllerStep_next s
  · exact ⟨s, rfl⟩

/-- Whoever moves next, the move answers a next state. -/
theorem takeMove_next (s : State) : ∃ t, takeMove s = .next t := by
  match hi : s.inputs with
  | [] => exact takeMove_nil hi ▸ controllerMove_next s
  | .ctrl :: rest => exact takeMove_ctrl hi ▸ controllerMove_next (setInputs s rest)
  | .host a :: rest => exact ⟨_, takeMove_host hi⟩
  | .reset :: rest => exact ⟨_, takeMove_reset hi⟩
  | .port a :: rest =>
    by_cases hb : s.status.busy = true
    · by_cases hp : s.hidden.pending = none
      · exact ⟨_, takeMove_stray hi (.inr hp)⟩
      · exact takeMove_answer hi hb (Option.isSome_iff_ne_none.2 hp) ▸ controllerStep_next s
    · exact ⟨_, takeMove_stray hi (.inl (by simpa using hb))⟩

/-- With well-formed maps a step answers a next state. -/
theorem step_next {s : State} (hm : mapsOk s.maps = true) : ∃ t, step s = .next t :=
  step_eq_takeMove hm ▸ takeMove_next s

/-! ### The field maps are parameters (log 3) -/

/-- A controller step of a command keeps the field maps. -/
theorem exec_maps {i : Instr} {s t : State} (h : exec i s = .next t) : t.maps = s.maps := by
  by_cases hk : PortCommand i
  · exact (exec_portKept hk h).maps
  · obtain ⟨e, -, rfl⟩ | ⟨r0, r1, r2, r3, rfl, -⟩ := exec_pure hk h
    · exact finish_maps s e
    · exact finish_maps _ .none

/-- A host access keeps the field maps: no register reaches them. -/
theorem HostMove.maps_kept {s t : State} (h : HostMove s t) : t.maps = s.maps := by
  cases h with
  | accepts | aborts | drops | data => rfl

/-- Every move keeps the field maps, a reset too (log 17). -/
theorem Move.maps_kept {s t : State} (h : Move s t) : t.maps = s.maps := by
  cases h with
  | idles | resets | illegal => rfl
  | host a rest => exact (hostAccess_hostMove (setInputs s rest) a).maps_kept
  | firstStep es i _ _ _ _ hx => exact exec_maps (s := setInputs s es) hx
  | answered _ _ i _ _ _ _ _ hx => exact exec_maps hx

/-- Settles O60: with well-formed maps the next move answers and keeps the maps, with an ill-formed one the
step is refused, and `Fault` has no value a step could end in (R255). -/
theorem stepNeverFaults : Obligations.StepNeverFaults := by
  intro s
  refine ⟨fun f => (nomatch f), step_refused, fun hm => ?_⟩
  obtain ⟨t, ht⟩ := step_next hm
  exact ⟨t, ht, (step_move ht).2.maps_kept⟩

end Sys2Proof.Machine

/-! SUPPORT. The state a reset leaves (70_reset_and_hazards.md R280): what the host reads in it, and that the
machine's invariant holds. -/

namespace Sys2Proof.Machine

open Sys2Proof

/-! ### What the host reads after a reset -/

/-- Four zero bytes are the zero word. -/
theorem wordOfBytes_zero : wordOfBytes 0 0 0 0 = 0 := by decide

/-- A cleared BULK holds zero words only. -/
theorem readBulkWord_nil (k : Nat) : readBulkWord [] k = 0 := by
  simp only [readBulkWord, readByte_nil, wordOfBytes_zero]

/-- Idle is state 0, NONE error 0 and Small class 0, so the reset STATUS is the zero word (R35, R280). -/
theorem statusWord_zero : statusWord Status.zero = 0 := by decide

/-- The views of the all-zero DividerSet (R31, R37). -/
theorem dividerWords_zero : divNoWord DividerSet.zero = 0 ∧ vcoLoWord DividerSet.zero = 0 ∧
    vcoHiWord DividerSet.zero = 0 := by decide

/-- The XO word of the reset ClockState (R183). -/
theorem xoWord_clockZero : xoWord ClockState.zero.xo = 0 := by decide

/-- XOUSER of two zero bytes (R31). -/
theorem xoUserWord_zero : ((0 : Byte) ++ (0 : Byte)).setWidth 32 = (0 : Word) := by decide

/-- After a reset every register of the map reads 0: the words put together from several fields are those
of zero fields, and each other register is one zero field, widened where it is narrow. -/
theorem regValue_resetController (s : State) (r : HostReg) :
    regValue (resetController s) r = 0 := by
  obtain ⟨hdivNo, hvcoLo, hvcoHi⟩ := dividerWords_zero
  cases r with
  | status => exact statusWord_zero
  | divNo => exact hdivNo
  | vcoLo => exact hvcoLo
  | vcoHi => exact hvcoHi
  | xoSet => exact xoWord_clockZero
  | xoUser => exact xoUserWord_zero
  | bulk k => exact readBulkWord_nil k
  | imgDiv0 | imgDiv1 | imgXo0 | imgXo1 => exact wordOfBytes_zero
  | _ => rfl

/-- Settles O16: whatever register an offset names, it reads 0 after the reset move. -/
theorem resetClearsEverything : Obligations.ResetClearsEverything := by
  intro s rest hm hi
  have hstep : step s = .next (resetController (setInputs s rest)) :=
    (step_eq_takeMove hm).trans (takeMove_reset hi)
  exact ⟨_, hstep, fun a => regValue_resetController _ (hostReg a), rfl, rfl, rfl, rfl,
    readByte_nil⟩

/-! ### The invariant after a reset -/

/-- A reset restores the machine's invariant, whatever ran before. -/
theorem machineInv_resetController (s : State) : MachineInv (resetController s) where
  memory := ⟨rfl, rfl⟩
  sequencer := sequencerInv_resetController s
  clock := clockInv_resetController s

/-- The reset state is a fixed point of the reset move. -/
theorem resetController_reset : resetController State.reset = State.reset := rfl

/-- Settles O50: the reset state is the one a reset move leaves from it. -/
theorem resetMeetsInvariant : Obligations.ResetMeetsInvariant := by
  rw [Obligations.ResetMeetsInvariant, ← resetController_reset]
  exact machineInv_resetController State.reset

end Sys2Proof.Machine
